-- ==== Sys2Proof/Syntax.lean ====
section
/-! DEFINITION. The fifteen commands of the block (30_encoding.md R61): one constructor per row of the opcode table.
A command carries no operand field and no immediate (R62). -/

namespace Sys2Proof

/-- A command: the block's unit of execution (00_scope.md R2, R8). -/
inductive Instr where
  /-- `NOP`, 47_system.md R150. -/
  | nop
  /-- `SRST`, 47_system.md R151. -/
  | srst
  /-- `CRC_INIT`, 40_crc32.md R72. -/
  | crcInit
  /-- `CRC_UPD`, 40_crc32.md R73. -/
  | crcUpd
  /-- `CRC_PUT`, 40_crc32.md R74. -/
  | crcPut
  /-- `ICS_INIT`, 41_inet_checksum.md R82. -/
  | icsInit
  /-- `ICS_UPD`, 41_inet_checksum.md R83. -/
  | icsUpd
  /-- `ICS_PUT`, 41_inet_checksum.md R84. -/
  | icsPut
  /-- `RC4_KSA`, 42_rc4.md R91. -/
  | rc4Ksa
  /-- `RC4_XOR`, 42_rc4.md R92. -/
  | rc4Xor
  /-- `BSEL`, 43_wep.md R100. -/
  | bsel
  /-- `WEP_DEC`, 43_wep.md R103. -/
  | wepDec
  /-- `WPA_DEC`, 44_wpa_ccmp.md R110. -/
  | wpaDec
  /-- `TKIP_DEC`, 46_tkip.md R145. -/
  | tkipDec
  /-- `CCMP_DEC`, 44_wpa_ccmp.md R117. -/
  | ccmpDec
  deriving DecidableEq, Repr

/-- A command of the decryption pipeline: 00_scope.md's glossary ("Pipeline command"). -/
def Instr.isPipeline : Instr → Bool
  | .wepDec => true
  | .wpaDec => true
  | .tkipDec => true
  | .ccmpDec => true
  | .nop => false
  | .srst => false
  | .crcInit => false
  | .crcUpd => false
  | .crcPut => false
  | .icsInit => false
  | .icsUpd => false
  | .icsPut => false
  | .rc4Ksa => false
  | .rc4Xor => false
  | .bsel => false

end Sys2Proof
end

