-- ==== Sys2Proof/Word.lean ====
section
/-! DEFINITION. The word types of the block: every quantity the spec treats as bits (00_scope.md R6). -/

namespace Sys2Proof

/-- A byte (an octet): 8 bits (R6). -/
abbrev Byte := BitVec 8

/-- A 16-bit quantity: a header field, a checksum word, a TKIP mixing word. -/
abbrev Half := BitVec 16

/-- A 32-bit quantity: the bus word, the operand registers, the CRC-32 remainder. -/
abbrev Word := BitVec 32

/-- An IEEE 802 address, six octets, the octet transmitted first at index 0 (R6). -/
abbrev Addr := Vector Byte 6

/-- A 16-byte AES block or key (45_aes128.md R134). -/
abbrev Block := Vector Byte 16

end Sys2Proof
end

