-- ==== Sys2Proof/Decode.lean ====
section
/-! DEFINITION. The command word (30_encoding.md R60, R61, R63): decoder, encoder, and the host's view of the decoder. -/

namespace Sys2Proof

/-- Why a word is no command (R63). -/
inductive DecodeError where
  /-- Bits [31:8], the `ZERO` field, are not zero. -/
  | zeroField (z : BitVec 24)
  /-- Bits [7:0] are none of the fifteen opcodes. -/
  | unusedOpcode (op : Byte)
  deriving DecidableEq, Repr

/-- `OPCODE`, bits [7:0] of the command word (R60). -/
def opcodeField (w : Word) : Byte := w.extractLsb' 0 8

/-- `ZERO`, bits [31:8] of the command word (R60). -/
def zeroField (w : Word) : BitVec 24 := w.extractLsb' 8 24

/-- The opcode map of R61. -/
def opcodeInstr (op : Byte) : Option Instr :=
  match op.toNat with
  | 0x00 => some .nop
  | 0x01 => some .srst
  | 0x10 => some .crcInit
  | 0x11 => some .crcUpd
  | 0x12 => some .crcPut
  | 0x20 => some .icsInit
  | 0x21 => some .icsUpd
  | 0x22 => some .icsPut
  | 0x30 => some .rc4Ksa
  | 0x31 => some .rc4Xor
  | 0x40 => some .bsel
  | 0x41 => some .wepDec
  | 0x42 => some .wpaDec
  | 0x43 => some .tkipDec
  | 0x44 => some .ccmpDec
  | _ => none

/-- Decoding a command word: total, and the word is taken as a number (log 6). A word that is not listed in R61 is
illegal (R63) and is refused by the name of the field that is wrong. -/
def decode (w : Word) : Except DecodeError Instr :=
  if zeroField w = 0#24 then
    match opcodeInstr (opcodeField w) with
    | some i => .ok i
    | none => .error (.unusedOpcode (opcodeField w))
  else .error (.zeroField (zeroField w))

/-- The `OPCODE` of a command (R61). -/
def encodeOpcode : Instr → Byte
  | .nop => 0x00#8
  | .srst => 0x01#8
  | .crcInit => 0x10#8
  | .crcUpd => 0x11#8
  | .crcPut => 0x12#8
  | .icsInit => 0x20#8
  | .icsUpd => 0x21#8
  | .icsPut => 0x22#8
  | .rc4Ksa => 0x30#8
  | .rc4Xor => 0x31#8
  | .bsel => 0x40#8
  | .wepDec => 0x41#8
  | .wpaDec => 0x42#8
  | .tkipDec => 0x43#8
  | .ccmpDec => 0x44#8

/-- The word of a command (R60): `ZERO` above `OPCODE`. -/
def encode (i : Instr) : Word := 0#24 ++ encodeOpcode i

/-- The host's view of the decoder: the command that the `nbits` low bits of `w` stand for, read as one 32-bit command
word. A number that does not fit 32 bits is no command word (there is one command length, R60). -/
def decodeTableWord (nbits w : Nat) : Option Instr :=
  let v := w % 2 ^ nbits
  if v < 2 ^ 32 then (decode (BitVec.ofNat 32 v)).toOption else none

end Sys2Proof
end

