-- ==== Sys2Proof/Config.lean ====
section
/-! DEFINITION. The implementation parameters of 00_scope.md R5, and the one value the spec leaves free. -/

namespace Sys2Proof

/-- `WEP_HDR_LEN` (R5): one of 3 and 4. -/
inductive WepHdrLen where
  /-- The literal reading of the source document (90_conflicts.md C1). -/
  | three
  /-- The value of this spec. -/
  | four
  deriving DecidableEq, Repr

/-- The number of bytes at the front of a WEP body that are not encrypted. -/
def WepHdrLen.toNat : WepHdrLen → Nat
  | .three => 3
  | .four => 4

/-- `CCMP_TK_OFF` (R5): one of 32 and 48. -/
inductive CcmpTkOff where
  /-- The value of this spec. -/
  | at32
  /-- The literal reading of the source document (90_conflicts.md C2). -/
  | at48
  deriving DecidableEq, Repr

/-- The byte offset in `PTK` of the AES key. -/
def CcmpTkOff.toNat : CcmpTkOff → Nat
  | .at32 => 32
  | .at48 => 48

/-- The parameters of one block (R5, 10_state.md R30): fixed for the block, changed by no command and no bus write.
Which sizes are legal is `Config.wf` of WellFormed.lean. -/
structure Config where
  /-- `MEM_SIZE`: the size of `MEM` in bytes. -/
  memSize : Nat
  /-- `WEP_HDR_LEN`. -/
  wepHdrLen : WepHdrLen
  /-- `CCMP_TK_OFF`. -/
  ccmpTkOff : CcmpTkOff
  deriving DecidableEq, Repr

/-- The defaults of R5: 65536, 4, 32. -/
def Config.default : Config := { memSize := 65536, wepHdrLen := .four, ccmpTkOff := .at32 }

/-- `ID_VALUE` (R5, 10_state.md R16). -/
def Config.idValue : Word := 0x43434231#32

/-- `TKIP_TK_OFF` (R5): fixed. -/
def Config.tkipTkOff : Nat := 32

/-- FREE VALUE (20_memory.md R56, 93_implementation_defined.md U1; log 3). What a byte of `MEM` that nothing has written
since hardware reset reads as: `unwrittenByte t a` at the `t`-th served event and buffer index `a`. It has no body, so
nothing can be proved of its value, and it may differ between two reads (`t` differs). -/
opaque Config.unwrittenByte : Nat → Nat → Byte

end Sys2Proof
end

