-- ==== Sys2Proof/Machine/State.lean ====
section
/-! DEFINITION. The state of the block (10_state.md R10), its inputs and outputs, the ways a step can stop, and the state
after hardware reset (R29). -/

namespace Sys2Proof.Machine

/-- `STATUS.CODE` (10_state.md R15, 60_exceptions.md R160): the six codes; 6 to 15 never occur (log 7). -/
inductive Code where
  /-- The command completed; for a pipeline command the integrity check passed. -/
  | ok
  /-- A pipeline command's integrity check did not match. -/
  | fail
  /-- The word written to `CMD` is no command word. -/
  | errOp
  /-- `LEN` is too small for the fixed parts of the frame body, or too large for the CCM length field. -/
  | errLen
  /-- `KLEN` is outside the legal range. -/
  | errKlen
  /-- A source or destination range does not lie inside `MEM`. -/
  | errRange
  deriving DecidableEq, Repr

/-- `CTRL.CIPHER` (10_state.md R14): 0 is TKIP, 1 is CCMP. -/
inductive Cipher where
  | tkip
  | ccmp
  deriving DecidableEq, Repr

/-- The response of a bus transaction (20_memory.md R40). -/
inductive Resp where
  | okay
  | err
  deriving DecidableEq, Repr

/-- What a served transaction answers (R40): a read its response and 32 bits of data, a write its response. -/
inductive Reply where
  | read (resp : Resp) (data : Word)
  | write (resp : Resp)
  deriving DecidableEq, Repr

/-- What the outside world can do to the block: the two transactions of R40, each with its width in bits and its byte
offset from the block's base, and hardware reset (70_reset_and_hazards.md R180; log 8, 11, 17). -/
inductive Event where
  | read (bits off : Nat)
  | write (bits off : Nat) (data : Word)
  | hardReset
  deriving DecidableEq, Repr

/-- The RC4 engine state (10_state.md R20): `S[0..256)`, `i`, `j`. -/
structure Rc4 where
  s : Vector Byte 256
  i : Byte
  j : Byte
  deriving DecidableEq, Repr

/-- The identity permutation `S[k] = k` (10_state.md R29). -/
def Rc4.identity : Vector Byte 256 := ⟨((List.range 256).map (BitVec.ofNat 8)).toArray, by simp⟩

/-- The RC4 engine after reset (R29). -/
def Rc4.reset : Rc4 := { s := Rc4.identity, i := 0#8, j := 0#8 }

/-- The written bytes of `MEM`, by buffer index: addresses strictly rising. A byte that is not listed has no value (log 3). -/
abbrev Memory := List Host.Cell

/-- The whole state of the block (10_state.md R10), and below it the model's own four fields. -/
structure State where
  /-- `CTRL.CIPHER`, R14. -/
  cipher : Cipher
  /-- `STATUS.CODE`, R15. -/
  status : Code
  /-- `SRC`, R12. -/
  src : Word
  /-- `DST`, R12. -/
  dst : Word
  /-- `LEN`, R12. -/
  len : Word
  /-- `KLEN`, R12. -/
  klen : Word
  /-- `OLEN`, R12. -/
  olen : Word
  /-- `CRC_ACC`, R18. -/
  crcAcc : Word
  /-- `ICS_ACC.SUM`, R19. -/
  icsSum : Half
  /-- `ICS_ACC.PHASE`, R19: true when the next byte is the low byte of a word. -/
  icsPhase : Bool
  /-- `S`, `i`, `j`, R20. -/
  rc4 : Rc4
  /-- `BSSID`, R21. -/
  bssid : Addr
  /-- `FC`, R22. -/
  fc : Half
  /-- `SC`, R22. -/
  sc : Half
  /-- `QC`, R22. -/
  qc : Half
  /-- `A1`, R23. -/
  a1 : Addr
  /-- `A2`, R23. -/
  a2 : Addr
  /-- `A3`, R23. -/
  a3 : Addr
  /-- `A4`, R23. -/
  a4 : Addr
  /-- `PTK`, R24. -/
  ptk : Vector Byte 64
  /-- `KEY`, R25. -/
  key : Vector Byte 256
  /-- `MEM`, R26: the bytes written since hardware reset. -/
  mem : Memory
  /-- The MODEL's own: the parameters of this block, constants (00_scope.md R5, R30; log 5). -/
  cfg : Config
  /-- The MODEL's own: how many events have been served, the argument of the free value of an unwritten byte (log 4). -/
  draws : Nat
  /-- The MODEL's own: the events the host still offers, oldest first (R13, 30_encoding.md R66; log 1). -/
  inbox : List Event
  /-- The MODEL's own: what the last served transaction answered (R40; log 10). -/
  reply : Option Reply
  deriving DecidableEq, Repr

/-- The faults of the machine: none. The spec gives the block no trap and no way to stop (60_exceptions.md R165,
47_system.md R153; log 18): every error is a `STATUS.CODE` or a bus response, both of them next states. No definition
raises a fault, which is safe. -/
inductive Fault where
  deriving DecidableEq, Repr

/-- The refusals of the machine. -/
inductive Refusal where
  /-- Raised only by an arm of `exec` for an instruction that has no meaning yet; no arm does. It is safe: the machine
  stops where the hardware goes on. -/
  | notModelled (mnemonic : String)
  deriving DecidableEq, Repr

/-- What a meaning answers. -/
abbrev Result := Host.Outcome State Fault Refusal

/-- The state after hardware reset of a block with parameters `c` (10_state.md R29, 70_reset_and_hazards.md R181). -/
def State.resetWith (c : Config) : State where
  cipher := .tkip
  status := .ok
  src := 0#32
  dst := 0#32
  len := 0#32
  klen := 0#32
  olen := 0#32
  crcAcc := 0xFFFFFFFF#32
  icsSum := 0#16
  icsPhase := false
  rc4 := Rc4.reset
  bssid := Vector.replicate 6 0#8
  fc := 0#16
  sc := 0#16
  qc := 0#16
  a1 := Vector.replicate 6 0#8
  a2 := Vector.replicate 6 0#8
  a3 := Vector.replicate 6 0#8
  a4 := Vector.replicate 6 0#8
  ptk := Vector.replicate 64 0#8
  key := Vector.replicate 256 0#8
  mem := []
  cfg := c
  draws := 0
  inbox := []
  reply := none

/-- The machine right after hardware reset, with the default parameters of R5. -/
def State.reset : State := State.resetWith Config.default

end Sys2Proof.Machine
end

