-- ==== Sys2Proof/Machine/Ops.lean ====
section
/-! DEFINITION. The named operations every meaning is built from: byte order (00_scope.md R6, 20_memory.md R44), the packet
buffer (R46 to R48, R56), and how a command ends (60_exceptions.md R160 to R163). -/

namespace Sys2Proof.Machine

/-! ### Byte order (00_scope.md R6) -/

/-- Byte `k` of a bus word: bits [8k+7:8k] (20_memory.md R42). -/
def byteLane (w : Word) (k : Nat) : Byte := w.extractLsb' (8 * k) 8

/-- `LE32(b0..b3)` (R6): `b0` is the least significant byte. -/
def le32 (b0 b1 b2 b3 : Byte) : Word := b3 ++ b2 ++ b1 ++ b0

/-- `LE16(b0, b1)` (R6): `b0` is the low byte. -/
def le16 (b0 b1 : Byte) : Half := b1 ++ b0

/-- `le32(v)` (R6): the four bytes of a word, least significant first. -/
def le32Bytes (w : Word) : List Byte := [byteLane w 0, byteLane w 1, byteLane w 2, byteLane w 3]

/-- `le16(v)` (R6): low byte first. -/
def le16Bytes (v : Half) : List Byte := [v.extractLsb' 0 8, v.extractLsb' 8 8]

/-- `be16(v)` (R6): high byte first. -/
def be16Bytes (v : Half) : List Byte := [v.extractLsb' 8 8, v.extractLsb' 0 8]

/-- `^` on byte sequences, byte by byte, as long as the shorter one. -/
def xorBytes (x y : List Byte) : List Byte := List.zipWith (· ^^^ ·) x y

/-! ### The packet buffer -/

/-- The byte written last at index `a`, or `none` where nothing has been written since hardware reset (R56). -/
def Memory.lookup : Memory → Nat → Option Byte
  | [], _ => none
  | (k, b) :: m, a => if k = a then some b else Memory.lookup m a

/-- Write one byte, keeping the addresses strictly rising. -/
def Memory.store : Memory → Nat → Byte → Memory
  | [], a, v => [(a, v)]
  | (k, b) :: m, a, v =>
    if a < k then (a, v) :: (k, b) :: m
    else if a = k then (k, v) :: m
    else (k, b) :: Memory.store m a v

/-- `MemWrite(addr, n, v)` on the buffer itself (00_scope.md R7): byte `k` of `v` goes to index `addr + k`. -/
def Memory.storeRange : Memory → Nat → List Byte → Memory
  | m, _, [] => m
  | m, a, v :: vs => Memory.storeRange (Memory.store m a v) (a + 1) vs

/-- The canonical form: addresses strictly rising. (An unlisted byte holds no value, so no entry can equal it.) -/
abbrev Memory.wf (m : Memory) : Prop := m.Pairwise fun p q => p.1 < q.1

/-- Reading one byte of `MEM`: the byte written last, or a free value where nothing has been written (20_memory.md R56,
93_implementation_defined.md U1; log 3). No side effect (R46). -/
def State.byteAt (s : State) (a : Nat) : Byte :=
  match s.mem.lookup a with
  | some b => b
  | none => Config.unwrittenByte s.draws a

/-- `MemRead(addr, n)` (00_scope.md R7). -/
def State.memRead (s : State) (a : Nat) : Nat → List Byte
  | 0 => []
  | n + 1 => s.byteAt a :: State.memRead s (a + 1) n

/-- `MemWrite(addr, n, v)` (00_scope.md R7): exactly the bytes of `v`, no neighbour (70_reset_and_hazards.md R189). -/
def State.memWrite (s : State) (a : Nat) (v : List Byte) : State := { s with mem := s.mem.storeRange a v }

/-! ### How a command ends -/

/-- The command ends in `OK` (60_exceptions.md R160). -/
def State.done (s : State) : State := { s with status := .ok }

/-- `raise <Code>` of a command that is not a pipeline command (00_scope.md R7, 60_exceptions.md R163): the code and
nothing else. The block has no exception that transfers control (R165): this is the whole of taking one, and there is
nothing to return from (R166). -/
def State.raise (s : State) (c : Code) : State := { s with status := c }

/-- `raise <Code>` of a pipeline command (R7, R163): the code, and `OLEN <- 0`. -/
def State.raisePipeline (s : State) (c : Code) : State := { s with status := c, olen := 0#32 }

end Sys2Proof.Machine
end

