-- ==== Sys2Proof/Machine/Flags.lean ====
section
/-! DEFINITION. The bits software sees in the control, status and accumulator registers (10_state.md R14 to R19), and the
bits of `FC` the block uses (R22). -/

namespace Sys2Proof.Machine

/-- The four bits of `STATUS.CODE` (R15). -/
def Code.bits : Code → BitVec 4
  | .ok => 0#4
  | .fail => 1#4
  | .errOp => 2#4
  | .errLen => 3#4
  | .errKlen => 4#4
  | .errRange => 5#4

/-- The bit of `CTRL.CIPHER` (R14). -/
def Cipher.bit : Cipher → BitVec 1
  | .tkip => 0#1
  | .ccmp => 1#1

/-- The cipher a written `CTRL` word selects: bit 0, the others ignored (R14). -/
def cipherOfWord (w : Word) : Cipher := if w.getLsbD 0 then .ccmp else .tkip

/-- `CRC_VAL` (R18). -/
def crcVal (acc : Word) : Word := acc ^^^ 0xFFFFFFFF#32

/-- `ICS_VAL[15:0]` (R19): the complement of the sum. -/
def icsVal (sum : Half) : Half := ~~~sum

/-- `ICS_ACC` as software reads it: `SUM` in [15:0], `PHASE` in [16] (R19). -/
def icsAccWord (sum : Half) (phase : Bool) : Word := 0#15 ++ BitVec.ofBool phase ++ sum

/-- `FC` bit 8, to-DS (R22). -/
def toDs (fc : Half) : Bool := fc.getLsbD 8

/-- `FC` bit 9, from-DS (R22). -/
def fromDs (fc : Half) : Bool := fc.getLsbD 9

/-- `a4_present` (44_wpa_ccmp.md R112): both DS bits set. -/
def a4Present (fc : Half) : Bool := toDs fc && fromDs fc

/-- `qos_present` (R112): type [3:2] is data and bit 7 is set. -/
def qosPresent (fc : Half) : Bool := fc.extractLsb' 2 2 == 0b10#2 && fc.getLsbD 7

/-- `x[FC][14] <- 0`: the protected flag cleared, every other bit kept (R22, 43_wep.md R102). -/
def clearProtected (fc : Half) : Half := fc &&& 0xBFFF#16

end Sys2Proof.Machine
end

