-- ==== Sys2Proof/Machine/Operands.lean ====
section
/-! DEFINITION. The operand forms of the commands: the register-direct ranges of 20_memory.md R57 with the range check of
R48, the key bytes, and the temporal keys. Every operand is implicit (30_encoding.md R62). -/

namespace Sys2Proof.Machine

/-- The source range check: `SRC + n <= MEM_SIZE` on natural numbers, never wrapping (R48). -/
def State.srcFits (s : State) (n : Nat) : Bool := decide (s.src.toNat + n ≤ s.cfg.memSize)

/-- The destination range check: `DST + n <= MEM_SIZE` on natural numbers (R48). -/
def State.dstFits (s : State) (n : Nat) : Bool := decide (s.dst.toNat + n ≤ s.cfg.memSize)

/-- `MemRead(x[SRC] + h, n)`: the source range from offset `h` on. -/
def State.srcBytes (s : State) (h n : Nat) : List Byte := s.memRead (s.src.toNat + h) n

/-- Byte `k` of the frame body, `MEM[SRC + k]` (43_wep.md R101, 44_wpa_ccmp.md R111, 46_tkip.md R140). -/
def State.bodyByte (s : State) (k : Nat) : Byte := s.byteAt (s.src.toNat + k)

/-- `MemWrite(x[DST], len(v), v)`. -/
def State.dstWrite (s : State) (v : List Byte) : State := s.memWrite s.dst.toNat v

/-- `KEY[0..x[KLEN])` (10_state.md R25): bytes at index `KLEN` and above are ignored. -/
def State.keyBytes (s : State) : List Byte := s.key.toList.take s.klen.toNat

/-- The 16 bytes of `PTK` from offset `off` (10_state.md R24). -/
def ptkBlock (ptk : Vector Byte 64) (off : Nat) (h : off + 16 ≤ 64) : Block :=
  Vector.ofFn fun k => ptk[off + k.val]

/-- The temporal key of the CCMP path: `PTK[CCMP_TK_OFF..CCMP_TK_OFF+16)` (44_wpa_ccmp.md section 3). -/
def State.ccmpTk (s : State) : Block :=
  ptkBlock s.ptk s.cfg.ccmpTkOff.toNat (by cases s.cfg.ccmpTkOff <;> decide)

/-- The temporal key of the TKIP path: `PTK[TKIP_TK_OFF..TKIP_TK_OFF+16)` (46_tkip.md R141). -/
def State.tkipTk (s : State) : Block := ptkBlock s.ptk Config.tkipTkOff (by decide)

end Sys2Proof.Machine
end

