-- ==== Sys2Proof/Machine/Bus.lean ====
section
/-! DEFINITION. The register map and what a bus access does to it (10_state.md R11, R28; 20_memory.md R40, R42, R43). Offsets
are byte offsets from the block's base, plain natural numbers (log 11). -/

namespace Sys2Proof.Machine

/-- The four address registers (10_state.md R23). -/
inductive AddrReg where
  | a1
  | a2
  | a3
  | a4
  deriving DecidableEq, Repr

/-- The mapped words of 10_state.md R11. -/
inductive Reg where
  | id
  | ctrl
  | status
  | cmd
  | src
  | dst
  | len
  | klen
  | olen
  | crcAcc
  | crcVal
  | icsAcc
  | icsVal
  | bssidLo
  | bssidHi
  | fc
  | sc
  | qc
  | addrLo (n : AddrReg)
  | addrHi (n : AddrReg)
  | key (w : Fin 64)
  | ptk (w : Fin 16)
  | mem (w : Nat)
  deriving DecidableEq, Repr

/-- The offset of `An_LO` (R11). -/
def addrLoOffset : AddrReg → Nat
  | .a1 => 0x50
  | .a2 => 0x58
  | .a3 => 0x60
  | .a4 => 0x68

/-- The offset of a mapped word (R11). -/
def regOffset : Reg → Nat
  | .id => 0x00
  | .ctrl => 0x04
  | .status => 0x08
  | .cmd => 0x0C
  | .src => 0x10
  | .dst => 0x14
  | .len => 0x18
  | .klen => 0x1C
  | .olen => 0x20
  | .crcAcc => 0x24
  | .crcVal => 0x28
  | .icsAcc => 0x2C
  | .icsVal => 0x30
  | .bssidLo => 0x34
  | .bssidHi => 0x38
  | .fc => 0x40
  | .sc => 0x44
  | .qc => 0x48
  | .addrLo n => addrLoOffset n
  | .addrHi n => addrLoOffset n + 4
  | .key w => 0x100 + 4 * w.val
  | .ptk w => 0x200 + 4 * w.val
  | .mem w => 0x10000 + 4 * w

/-- The mapped word below the windows at a 4-aligned offset; `none` is an unmapped hole (R11). -/
def scalarAt (off : Nat) : Option Reg :=
  match off with
  | 0x00 => some .id
  | 0x04 => some .ctrl
  | 0x08 => some .status
  | 0x0C => some .cmd
  | 0x10 => some .src
  | 0x14 => some .dst
  | 0x18 => some .len
  | 0x1C => some .klen
  | 0x20 => some .olen
  | 0x24 => some .crcAcc
  | 0x28 => some .crcVal
  | 0x2C => some .icsAcc
  | 0x30 => some .icsVal
  | 0x34 => some .bssidLo
  | 0x38 => some .bssidHi
  | 0x40 => some .fc
  | 0x44 => some .sc
  | 0x48 => some .qc
  | 0x50 => some (.addrLo .a1)
  | 0x54 => some (.addrHi .a1)
  | 0x58 => some (.addrLo .a2)
  | 0x5C => some (.addrHi .a2)
  | 0x60 => some (.addrLo .a3)
  | 0x64 => some (.addrHi .a3)
  | 0x68 => some (.addrLo .a4)
  | 0x6C => some (.addrHi .a4)
  | _ => none

/-- The mapped word at a 4-aligned offset, or `none` where R11 maps nothing: the three windows, else the scalar registers. -/
def regAt (memSize off : Nat) : Option Reg :=
  if 0x10000 ≤ off then
    if off + 4 ≤ 0x10000 + memSize then some (.mem ((off - 0x10000) / 4)) else none
  else if 0x200 ≤ off then
    if h : (off - 0x200) / 4 < 16 then some (.ptk ⟨(off - 0x200) / 4, h⟩) else none
  else if 0x100 ≤ off then
    if h : (off - 0x100) / 4 < 64 then some (.key ⟨(off - 0x100) / 4, h⟩) else none
  else scalarAt off

/-- The word an access reaches (20_memory.md R40, R45): `none`, hence the response `ERR`, unless the access is 32 bits wide,
4-byte aligned and mapped. -/
def accessReg (s : State) (bits off : Nat) : Option Reg :=
  if bits = 32 then if off % 4 = 0 then regAt s.cfg.memSize off else none else none

/-- Word `k / 4` of a byte window: `LE32` of the four bytes from `k` (20_memory.md R42). -/
def windowWord {n : Nat} (v : Vector Byte n) (k : Nat) (h : k + 3 < n) : Word := le32 v[k] v[k + 1] v[k + 2] v[k + 3]

/-- Writing a word of a byte window: all four bytes, lane by lane (20_memory.md R42). -/
def setWindowWord {n : Nat} (v : Vector Byte n) (k : Nat) (h : k + 3 < n) (w : Word) : Vector Byte n :=
  (((v.set k (byteLane w 0)).set (k + 1) (byteLane w 1)).set (k + 2) (byteLane w 2)).set (k + 3) (byteLane w 3)

/-- `An_LO`, `BSSID_LO` (10_state.md R21, R23). -/
def addrLoWord (a : Addr) : Word := le32 a[0] a[1] a[2] a[3]

/-- `An_HI`, `BSSID_HI` (R21, R23): bits [31:16] read 0. -/
def addrHiWord (a : Addr) : Word := (le16 a[4] a[5]).setWidth 32

/-- Writing `An_LO` (R23). -/
def setAddrLo (a : Addr) (w : Word) : Addr := #v[byteLane w 0, byteLane w 1, byteLane w 2, byteLane w 3, a[4], a[5]]

/-- Writing `An_HI` (R23): bits [31:16] are ignored. -/
def setAddrHi (a : Addr) (w : Word) : Addr := #v[a[0], a[1], a[2], a[3], byteLane w 0, byteLane w 1]

/-- The address register of that number (R23). -/
def State.addr (s : State) : AddrReg → Addr
  | .a1 => s.a1
  | .a2 => s.a2
  | .a3 => s.a3
  | .a4 => s.a4

/-- The state with that address register replaced (R23). -/
def State.setAddr (s : State) (n : AddrReg) (a : Addr) : State :=
  match n with
  | .a1 => { s with a1 := a }
  | .a2 => { s with a2 := a }
  | .a3 => { s with a3 := a }
  | .a4 => { s with a4 := a }

/-- What a read of a mapped word returns (10_state.md R14 to R26, R28): reserved bits read 0, `CMD` reads 0, and nothing
changes. -/
def readReg (s : State) : Reg → Word
  | .id => Config.idValue
  | .ctrl => s.cipher.bit.setWidth 32
  | .status => s.status.bits.setWidth 32
  | .cmd => 0#32
  | .src => s.src
  | .dst => s.dst
  | .len => s.len
  | .klen => s.klen
  | .olen => s.olen
  | .crcAcc => s.crcAcc
  | .crcVal => crcVal s.crcAcc
  | .icsAcc => icsAccWord s.icsSum s.icsPhase
  | .icsVal => (icsVal s.icsSum).setWidth 32
  | .bssidLo => addrLoWord s.bssid
  | .bssidHi => addrHiWord s.bssid
  | .fc => s.fc.setWidth 32
  | .sc => s.sc.setWidth 32
  | .qc => s.qc.setWidth 32
  | .addrLo n => addrLoWord (s.addr n)
  | .addrHi n => addrHiWord (s.addr n)
  | .key w => windowWord s.key (4 * w.val) (by omega)
  | .ptk w => windowWord s.ptk (4 * w.val) (by omega)
  | .mem w => le32 (s.byteAt (4 * w)) (s.byteAt (4 * w + 1)) (s.byteAt (4 * w + 2)) (s.byteAt (4 * w + 3))

/-- What a write of a mapped word other than `CMD` stores (10_state.md R14 to R26, R28): the bits the register implements;
a read-only register ignores it. `CMD` stores nothing (R17): its command is executed by `serve`. -/
def writeReg (s : State) (r : Reg) (v : Word) : State :=
  match r with
  | .id => s
  | .ctrl => { s with cipher := cipherOfWord v }
  | .status => s
  | .cmd => s
  | .src => { s with src := v }
  | .dst => { s with dst := v }
  | .len => { s with len := v }
  | .klen => { s with klen := v }
  | .olen => s
  | .crcAcc => { s with crcAcc := v }
  | .crcVal => s
  | .icsAcc => { s with icsSum := v.extractLsb' 0 16, icsPhase := v.getLsbD 16 }
  | .icsVal => s
  | .bssidLo => s
  | .bssidHi => s
  | .fc => { s with fc := v.extractLsb' 0 16 }
  | .sc => { s with sc := v.extractLsb' 0 16 }
  | .qc => { s with qc := v.extractLsb' 0 16 }
  | .addrLo n => s.setAddr n (setAddrLo (s.addr n) v)
  | .addrHi n => s.setAddr n (setAddrHi (s.addr n) v)
  | .key w => { s with key := setWindowWord s.key (4 * w.val) (by omega) v }
  | .ptk w => { s with ptk := setWindowWord s.ptk (4 * w.val) (by omega) v }
  | .mem w => s.memWrite (4 * w) (le32Bytes v)

end Sys2Proof.Machine
end

