-- ==== Sys2Proof/Machine/Aes.lean ====
section
/-! DEFINITION. The AES-128 block function (45_aes128.md): no command of its own, called by the CCMP path, and its S-box by
the TKIP path (46_tkip.md R142). -/

namespace Sys2Proof.Machine

/-! ### The field (R130) -/

/-- `xtime(a)` (R130): multiply by x modulo `x^8 + x^4 + x^3 + x + 1`. -/
def xtime (a : Byte) : Byte := if a.getLsbD 7 then (a <<< 1) ^^^ 0x1B#8 else a <<< 1

/-- `gmul(a, b)` (R130): bit `k` of `b`, least significant first, adds the running multiple of `a`. -/
def gmul (a b : Byte) : Byte :=
  ((List.range 8).foldl (fun p k => (if b.getLsbD k then p.1 ^^^ p.2 else p.1, xtime p.2)) (0#8, a)).1

/-! ### The S-box (R131) -/

/-- Rows `0_` to `7_` of the table of R131. -/
def sboxLow : Vector (Vector Byte 16) 8 := #v[
  #v[0x63#8, 0x7C#8, 0x77#8, 0x7B#8, 0xF2#8, 0x6B#8, 0x6F#8, 0xC5#8, 0x30#8, 0x01#8, 0x67#8, 0x2B#8, 0xFE#8, 0xD7#8, 0xAB#8, 0x76#8],
  #v[0xCA#8, 0x82#8, 0xC9#8, 0x7D#8, 0xFA#8, 0x59#8, 0x47#8, 0xF0#8, 0xAD#8, 0xD4#8, 0xA2#8, 0xAF#8, 0x9C#8, 0xA4#8, 0x72#8, 0xC0#8],
  #v[0xB7#8, 0xFD#8, 0x93#8, 0x26#8, 0x36#8, 0x3F#8, 0xF7#8, 0xCC#8, 0x34#8, 0xA5#8, 0xE5#8, 0xF1#8, 0x71#8, 0xD8#8, 0x31#8, 0x15#8],
  #v[0x04#8, 0xC7#8, 0x23#8, 0xC3#8, 0x18#8, 0x96#8, 0x05#8, 0x9A#8, 0x07#8, 0x12#8, 0x80#8, 0xE2#8, 0xEB#8, 0x27#8, 0xB2#8, 0x75#8],
  #v[0x09#8, 0x83#8, 0x2C#8, 0x1A#8, 0x1B#8, 0x6E#8, 0x5A#8, 0xA0#8, 0x52#8, 0x3B#8, 0xD6#8, 0xB3#8, 0x29#8, 0xE3#8, 0x2F#8, 0x84#8],
  #v[0x53#8, 0xD1#8, 0x00#8, 0xED#8, 0x20#8, 0xFC#8, 0xB1#8, 0x5B#8, 0x6A#8, 0xCB#8, 0xBE#8, 0x39#8, 0x4A#8, 0x4C#8, 0x58#8, 0xCF#8],
  #v[0xD0#8, 0xEF#8, 0xAA#8, 0xFB#8, 0x43#8, 0x4D#8, 0x33#8, 0x85#8, 0x45#8, 0xF9#8, 0x02#8, 0x7F#8, 0x50#8, 0x3C#8, 0x9F#8, 0xA8#8],
  #v[0x51#8, 0xA3#8, 0x40#8, 0x8F#8, 0x92#8, 0x9D#8, 0x38#8, 0xF5#8, 0xBC#8, 0xB6#8, 0xDA#8, 0x21#8, 0x10#8, 0xFF#8, 0xF3#8, 0xD2#8]]

/-- Rows `8_` to `F_` of the table of R131. -/
def sboxHigh : Vector (Vector Byte 16) 8 := #v[
  #v[0xCD#8, 0x0C#8, 0x13#8, 0xEC#8, 0x5F#8, 0x97#8, 0x44#8, 0x17#8, 0xC4#8, 0xA7#8, 0x7E#8, 0x3D#8, 0x64#8, 0x5D#8, 0x19#8, 0x73#8],
  #v[0x60#8, 0x81#8, 0x4F#8, 0xDC#8, 0x22#8, 0x2A#8, 0x90#8, 0x88#8, 0x46#8, 0xEE#8, 0xB8#8, 0x14#8, 0xDE#8, 0x5E#8, 0x0B#8, 0xDB#8],
  #v[0xE0#8, 0x32#8, 0x3A#8, 0x0A#8, 0x49#8, 0x06#8, 0x24#8, 0x5C#8, 0xC2#8, 0xD3#8, 0xAC#8, 0x62#8, 0x91#8, 0x95#8, 0xE4#8, 0x79#8],
  #v[0xE7#8, 0xC8#8, 0x37#8, 0x6D#8, 0x8D#8, 0xD5#8, 0x4E#8, 0xA9#8, 0x6C#8, 0x56#8, 0xF4#8, 0xEA#8, 0x65#8, 0x7A#8, 0xAE#8, 0x08#8],
  #v[0xBA#8, 0x78#8, 0x25#8, 0x2E#8, 0x1C#8, 0xA6#8, 0xB4#8, 0xC6#8, 0xE8#8, 0xDD#8, 0x74#8, 0x1F#8, 0x4B#8, 0xBD#8, 0x8B#8, 0x8A#8],
  #v[0x70#8, 0x3E#8, 0xB5#8, 0x66#8, 0x48#8, 0x03#8, 0xF6#8, 0x0E#8, 0x61#8, 0x35#8, 0x57#8, 0xB9#8, 0x86#8, 0xC1#8, 0x1D#8, 0x9E#8],
  #v[0xE1#8, 0xF8#8, 0x98#8, 0x11#8, 0x69#8, 0xD9#8, 0x8E#8, 0x94#8, 0x9B#8, 0x1E#8, 0x87#8, 0xE9#8, 0xCE#8, 0x55#8, 0x28#8, 0xDF#8],
  #v[0x8C#8, 0xA1#8, 0x89#8, 0x0D#8, 0xBF#8, 0xE6#8, 0x42#8, 0x68#8, 0x41#8, 0x99#8, 0x2D#8, 0x0F#8, 0xB0#8, 0x54#8, 0xBB#8, 0x16#8]]

/-- `SBOX[a]` (R131): row the high nibble, column the low nibble. -/
def sbox (a : Byte) : Byte :=
  let row := a.extractLsb' 4 3
  let col := a.extractLsb' 0 4
  if a.getLsbD 7 then (sboxHigh[row.toNat]'row.isLt)[col.toNat]'col.isLt
  else (sboxLow[row.toNat]'row.isLt)[col.toNat]'col.isLt

/-! ### Key expansion (R132) -/

/-- A word of the key schedule: four bytes in order (R132; no 32-bit number is formed, R134). -/
abbrev Quad := Vector Byte 4

/-- `^` on two words, byte by byte. -/
def xorQuad (u v : Quad) : Quad := #v[u[0] ^^^ v[0], u[1] ^^^ v[1], u[2] ^^^ v[2], u[3] ^^^ v[3]]

/-- What R132 does to `u = w[t-1]` when `t` is a multiple of 4: rotate left by a byte, substitute, add `rc`. -/
def rotSubWord (u : Quad) (rc : Byte) : Quad := #v[sbox u[1] ^^^ rc, sbox u[2], sbox u[3], sbox u[0]]

/-- The four words `w[4r], w[4r+1], w[4r+2], w[4r+3]` of round key `r` (R132). -/
structure RoundKey where
  w0 : Quad
  w1 : Quad
  w2 : Quad
  w3 : Quad
  deriving DecidableEq, Repr

/-- Round key 0: the key itself (R132, `t` from 0 to 3). -/
def firstRoundKey (k : Block) : RoundKey where
  w0 := #v[k[0], k[1], k[2], k[3]]
  w1 := #v[k[4], k[5], k[6], k[7]]
  w2 := #v[k[8], k[9], k[10], k[11]]
  w3 := #v[k[12], k[13], k[14], k[15]]

/-- Four passes of R132's loop: `w[t] <- w[t-4] ^ u` for the four `t` of the next round key (log 19). -/
def nextRoundKey (k : RoundKey) (rc : Byte) : RoundKey :=
  let w0 := xorQuad k.w0 (rotSubWord k.w3 rc)
  let w1 := xorQuad k.w1 w0
  let w2 := xorQuad k.w2 w1
  let w3 := xorQuad k.w3 w2
  { w0 := w0, w1 := w1, w2 := w2, w3 := w3 }

/-- The 16 bytes of a round key (R132). -/
def roundKeyBlock (k : RoundKey) : Block := #v[
  k.w0[0], k.w0[1], k.w0[2], k.w0[3], k.w1[0], k.w1[1], k.w1[2], k.w1[3],
  k.w2[0], k.w2[1], k.w2[2], k.w2[3], k.w3[0], k.w3[1], k.w3[2], k.w3[3]]

/-- `n` round keys from `k` on, `rc` the next round constant (R132). -/
def roundKeysFrom (k : RoundKey) (rc : Byte) : Nat → List Block
  | 0 => []
  | n + 1 => roundKeyBlock k :: roundKeysFrom (nextRoundKey k rc) (xtime rc) n

/-- `key_expand(K)` (R132): the round keys 0 to 10. -/
def keyExpand (k : Block) : List Block := roundKeysFrom (firstRoundKey k) 0x01#8 11

/-! ### The cipher (R133) -/

/-- `^` on two 16-byte sequences, byte by byte. -/
def xorBlock (a b : Block) : Block := Vector.zipWith (· ^^^ ·) a b

/-- `SubBytes` (R133). -/
def subBytes (s : Block) : Block := s.map sbox

/-- `ShiftRows` (R133): `s'[r + 4c] <- s[r + 4((c + r) mod 4)]`. -/
def shiftRows (s : Block) : Block := #v[
  s[0], s[5], s[10], s[15], s[4], s[9], s[14], s[3],
  s[8], s[13], s[2], s[7], s[12], s[1], s[6], s[11]]

/-- One column of `MixColumns` (R133). -/
def mixColumn (a0 a1 a2 a3 : Byte) : Quad := #v[
  gmul a0 2#8 ^^^ gmul a1 3#8 ^^^ a2 ^^^ a3,
  a0 ^^^ gmul a1 2#8 ^^^ gmul a2 3#8 ^^^ a3,
  a0 ^^^ a1 ^^^ gmul a2 2#8 ^^^ gmul a3 3#8,
  gmul a0 3#8 ^^^ a1 ^^^ a2 ^^^ gmul a3 2#8]

/-- `MixColumns` (R133). -/
def mixColumns (s : Block) : Block :=
  let c0 := mixColumn s[0] s[1] s[2] s[3]
  let c1 := mixColumn s[4] s[5] s[6] s[7]
  let c2 := mixColumn s[8] s[9] s[10] s[11]
  let c3 := mixColumn s[12] s[13] s[14] s[15]
  #v[c0[0], c0[1], c0[2], c0[3], c1[0], c1[1], c1[2], c1[3],
    c2[0], c2[1], c2[2], c2[3], c3[0], c3[1], c3[2], c3[3]]

/-- Rounds 1 to 10 with their round keys (R133): the last round has no `MixColumns`. -/
def aesRounds (s : Block) : List Block → Block
  | [] => s
  | [k] => xorBlock (shiftRows (subBytes s)) k
  | k :: ks => aesRounds (xorBlock (mixColumns (shiftRows (subBytes s))) k) ks

/-- `aes_cipher(w, B)` (R133): round key 0 is added first. -/
def aesCipher (keys : List Block) (b : Block) : Block :=
  match keys with
  | [] => b
  | k :: ks => aesRounds (xorBlock b k) ks

/-- `AES128_Enc(K, B)` (R134): a function of its two arguments alone. -/
def aesEnc (k b : Block) : Block := aesCipher (keyExpand k) b

end Sys2Proof.Machine
end

