-- ==== Sys2Proof/Machine/Crc32.lean ====
section
/-! DEFINITION. The CRC-32 generator unit (40_crc32.md): `CRC_INIT`, `CRC_UPD`, `CRC_PUT`. -/

namespace Sys2Proof.Machine

/-- One of the eight shifts of `crc_step` (R70): a logical right shift, with the reflected generator xored in when the
bit shifted out is 1. -/
def crcShift (acc : Word) : Word := if acc.getLsbD 0 then (acc >>> 1) ^^^ 0xEDB88320#32 else acc >>> 1

/-- `crc_step(acc, b)` (R70): the byte into the low end, then eight shifts. -/
def crcStep (acc : Word) (b : Byte) : Word := Nat.repeat crcShift 8 (acc ^^^ b.setWidth 32)

/-- `crc_upd(acc, X)` (R70). -/
def crcUpd (acc : Word) (x : List Byte) : Word := x.foldl crcStep acc

/-- The initial remainder (R71, R72). -/
def crcInit : Word := 0xFFFFFFFF#32

/-- `crc32(X)` (R71). -/
def crc32 (x : List Byte) : Word := crcVal (crcUpd crcInit x)

/-- `CRC_INIT` (R72). -/
def execCrcInit (s : State) : Result := .next { s.done with crcAcc := crcInit }

/-- `CRC_UPD` (R73): `ERR_RANGE` unless the source range lies in `MEM`. -/
def execCrcUpd (s : State) : Result :=
  .next (
    if s.srcFits s.len.toNat then
      { s.done with crcAcc := crcUpd s.crcAcc (s.srcBytes 0 s.len.toNat) }
    else s.raise .errRange)

/-- `CRC_PUT` (R74): `le32(CRC_VAL)` at `DST`, least significant byte first. -/
def execCrcPut (s : State) : Result :=
  .next (if s.dstFits 4 then (s.dstWrite (le32Bytes (crcVal s.crcAcc))).done else s.raise .errRange)

end Sys2Proof.Machine
end

