-- ==== Sys2Proof/Machine/Rc4Engine.lean ====
section
/-! DEFINITION. The RC4 keystream engine (42_rc4.md): `RC4_KSA`, `RC4_XOR`. All index arithmetic is modulo 256, which is
the arithmetic of bytes (R90, R93). -/

namespace Sys2Proof.Machine

/-- `S[k]`. -/
def sboxAt (v : Vector Byte 256) (k : Byte) : Byte := v[k.toNat]'k.isLt

/-- `swap S[a] and S[b]` (R90). -/
def sboxSwap (v : Vector Byte 256) (a b : Byte) : Vector Byte 256 := v.swap a.toNat b.toNat a.isLt b.isLt

/-- One step of the key schedule (R90): `j <- j + S[k] + K[k mod len(K)]`, then the swap. The schedule is only ever run
with `len(K) >= 1` (R91, 43_wep.md R103, 47_system.md R155; log 15). -/
def rc4KsaStep (key : List Byte) (p : Vector Byte 256 × Byte) (k : Nat) : Vector Byte 256 × Byte :=
  let j := p.2 + sboxAt p.1 (BitVec.ofNat 8 k) + key.getD (k % key.length) 0#8
  (sboxSwap p.1 (BitVec.ofNat 8 k) j, j)

/-- `rc4_ksa(K)` (R90): always from the identity, and `i` and `j` restart at 0. -/
def rc4Ksa (key : List Byte) : Rc4 :=
  { s := ((List.range 256).foldl (rc4KsaStep key) (Rc4.identity, 0#8)).1, i := 0#8, j := 0#8 }

/-- `rc4_next(S, i, j)` (R90): one keystream byte; the output index uses the values after the swap. -/
def rc4Next (r : Rc4) : Byte × Rc4 :=
  let i := r.i + 1#8
  let j := r.j + sboxAt r.s i
  let s := sboxSwap r.s i j
  (sboxAt s (sboxAt s i + sboxAt s j), { s := s, i := i, j := j })

/-- `rc4_xor((S, i, j), X)` (R90): the output bytes and the state after them. -/
def rc4Xor (r : Rc4) : List Byte → List Byte × Rc4
  | [] => ([], r)
  | x :: xs =>
    let p := rc4Next r
    let q := rc4Xor p.2 xs
    ((x ^^^ p.1) :: q.1, q.2)

/-- `RC4_KSA` (R91): `ERR_KLEN` unless `1 <= KLEN <= 256`. -/
def execRc4Ksa (s : State) : Result :=
  .next (
    if s.klen.toNat < 1 || 256 < s.klen.toNat then s.raise .errKlen
    else { s.done with rc4 := rc4Ksa s.keyBytes })

/-- `RC4_XOR` (R92): all reads first (20_memory.md R47), then the writes. -/
def execRc4Xor (s : State) : Result :=
  .next (
    if s.srcFits s.len.toNat && s.dstFits s.len.toNat then
      let r := rc4Xor s.rc4 (s.srcBytes 0 s.len.toNat)
      { (s.dstWrite r.1).done with rc4 := r.2 }
    else s.raise .errRange)

end Sys2Proof.Machine
end

