-- ==== Sys2Proof/Machine/Wep.lean ====
section
/-! DEFINITION. The pipeline's BSSID selection and WEP path (43_wep.md): `BSEL`, `WEP_DEC`, and the open step of R102 that
TKIP shares. -/

namespace Sys2Proof.Machine

/-- The BSSID of R100: both DS bits set selects `A3`, as the document says (93_implementation_defined.md U2; log 12). -/
def selectBssid (s : State) : Addr :=
  match toDs s.fc, fromDs s.fc with
  | false, false => s.a3
  | true, false => s.a1
  | false, true => s.a2
  | true, true => s.a3

/-- `BSEL` (R100). -/
def execBsel (s : State) : Result := .next { s.done with bssid := selectBssid s }

/-- A pipeline command's commit: the plaintext at `DST`, `OLEN`, and `FC` bit 14 cleared (R102, 44_wpa_ccmp.md R117). -/
def commitPlaintext (s : State) (p : List Byte) : State :=
  { (s.dstWrite p).done with olen := BitVec.ofNat 32 p.length, fc := clearProtected s.fc }

/-- `rc4_crc_open(K, h)` (R102): decrypt `MEM[SRC+h..SRC+LEN)`, compare the trailing CRC-32, commit on a match. The RC4
engine and `CRC_ACC` are replaced in both outcomes (90_conflicts.md C5). -/
def rc4CrcOpen (key : List Byte) (h : Nat) (s : State) : State :=
  let n := s.len.toNat - h
  let d := rc4Xor (rc4Ksa key) (s.srcBytes h n)
  let plain := d.1.take (n - 4)
  let icv := d.1.drop (n - 4)
  let acc := crcUpd crcInit plain
  let t := { s with rc4 := d.2, crcAcc := acc }
  if le32Bytes (crcVal acc) = icv then commitPlaintext t plain else t.raisePipeline .fail

/-- The RC4 key of a WEP frame (R103): the 3-byte IV at the front of the body, then the password. -/
def wepKey (s : State) : List Byte := s.srcBytes 0 3 ++ s.keyBytes

/-- `WEP_DEC` (R103): `ERR_LEN`, `ERR_KLEN`, `ERR_RANGE` in this order, then the open step. -/
def execWepDec (s : State) : Result :=
  let h := s.cfg.wepHdrLen.toNat
  .next (
    if s.len.toNat < h + 4 then s.raisePipeline .errLen
    else if 253 < s.klen.toNat then s.raisePipeline .errKlen
    else if !s.srcFits s.len.toNat then s.raisePipeline .errRange
    else if !s.dstFits (s.len.toNat - h - 4) then s.raisePipeline .errRange
    else rc4CrcOpen (wepKey s) h s)

end Sys2Proof.Machine
end

