-- ==== Sys2Proof/Machine/Ccmp.lean ====
section
/-! DEFINITION. The pipeline's CCMP path (44_wpa_ccmp.md R111 to R117): `CCMP_DEC`. -/

namespace Sys2Proof.Machine

/-- The packet number (R111): `PN5, PN4, PN3, PN2, PN1, PN0` from header bytes 7, 6, 5, 4, 1, 0. Bytes 2 and 3 are
ignored. -/
def ccmpPn (s : State) : List Byte :=
  [s.bodyByte 7, s.bodyByte 6, s.bodyByte 5, s.bodyByte 4, s.bodyByte 1, s.bodyByte 0]

/-- The additional authenticated data (R113). -/
def ccmpAad (s : State) : List Byte :=
  le16Bytes ((s.fc &&& 0xC78F#16) ||| 0x4000#16)
    ++ s.a1.toList ++ s.a2.toList ++ s.a3.toList
    ++ le16Bytes (s.sc &&& 0x000F#16)
    ++ (if a4Present s.fc then s.a4.toList else [])
    ++ (if qosPresent s.fc then le16Bytes (s.qc &&& 0x000F#16) else [])

/-- The priority octet of the nonce (R114): the TID of a QoS frame, else 0. -/
def ccmpPriority (s : State) : Byte := if qosPresent s.fc then (s.qc.extractLsb' 0 4).setWidth 8 else 0#8

/-- The nonce `N` (R114): 13 bytes. -/
def ccmpNonce (s : State) : List Byte := ccmpPriority s :: (s.a2.toList ++ ccmpPn s)

/-- The first 16 bytes of a sequence, zeros after its end (the padding of R116). -/
def toBlock (x : List Byte) : Block := Vector.ofFn fun k => x.getD k.val 0#8

/-- A byte sequence as 16-byte blocks, the last one padded with zeros (R116); no block when it is empty. -/
def toBlocks (x : List Byte) : List Block :=
  (List.range ((x.length + 15) / 16)).map fun c => toBlock (x.drop (16 * c))

/-- `S_c = E(ctr_block(c))` with `ctr_block(c) = 0x01 ++ N ++ be16(c)` (R115). -/
def ccmKeyBlock (tk : Block) (nonce : List Byte) (c : Nat) : Block :=
  aesEnc tk (toBlock (0x01#8 :: (nonce ++ be16Bytes (BitVec.ofNat 16 c))))

/-- `S_1 ++ S_2 ++ ... ++ S_ceil(m/16)` (R115). -/
def ccmKeystream (tk : Block) (nonce : List Byte) (m : Nat) : List Byte :=
  (List.range ((m + 15) / 16)).flatMap fun c => (ccmKeyBlock tk nonce (c + 1)).toList

/-- Counter-mode decryption (R115): the unused bytes of the last block are dropped. -/
def ccmCrypt (tk : Block) (nonce : List Byte) (x : List Byte) : List Byte :=
  xorBytes x (ccmKeystream tk nonce x.length)

/-- The MIC under counter 0 (R115): `U[0..8) ^ S_0[0..8)`. -/
def ccmMicCrypt (tk : Block) (nonce : List Byte) (u : List Byte) : List Byte :=
  xorBytes u ((ccmKeyBlock tk nonce 0).toList.take 8)

/-- The CBC-MAC `T` over the AAD and the plaintext (R116): `B_0 = 0x59 ++ N ++ be16(m)`, then the AAD with its length in
front, then the plaintext, each padded to whole blocks. -/
def ccmMac (tk : Block) (nonce aad plain : List Byte) : List Byte :=
  let b0 := toBlock (0x59#8 :: (nonce ++ be16Bytes (BitVec.ofNat 16 plain.length)))
  let ablk := toBlocks (be16Bytes (BitVec.ofNat 16 aad.length) ++ aad)
  let x := (ablk ++ toBlocks plain).foldl (fun x b => aesEnc tk (xorBlock x b)) (aesEnc tk b0)
  x.toList.take 8

/-- The CCMP path (R117), shared by `CCMP_DEC` and `WPA_DEC`: `ERR_LEN`, `ERR_RANGE`, then the MIC decides between commit
and `FAIL`. `KEY`, the RC4 engine and both accumulators are not touched. -/
def ccmpDecrypt (s : State) : State :=
  let m := s.len.toNat - 16
  if s.len.toNat < 16 then s.raisePipeline .errLen
  else if 65535 < m then s.raisePipeline .errLen
  else if !s.srcFits s.len.toNat then s.raisePipeline .errRange
  else if !s.dstFits m then s.raisePipeline .errRange
  else
    let nonce := ccmpNonce s
    let plain := ccmCrypt s.ccmpTk nonce (s.srcBytes 8 m)
    let received := ccmMicCrypt s.ccmpTk nonce (s.srcBytes (8 + m) 8)
    if ccmMac s.ccmpTk nonce (ccmpAad s) plain = received then commitPlaintext s plain
    else s.raisePipeline .fail

/-- `CCMP_DEC` (R117). -/
def execCcmpDec (s : State) : Result := .next (ccmpDecrypt s)

end Sys2Proof.Machine
end

