-- ==== Sys2Proof/Machine/InetChecksum.lean ====
section
/-! DEFINITION. The Internet checksum unit (41_inet_checksum.md): `ICS_INIT`, `ICS_UPD`, `ICS_PUT`. -/

namespace Sys2Proof.Machine

/-- `oc_add(a, w)` (R80): 16-bit one's-complement addition, the carry of the 17-bit sum added back in. -/
def ocAdd (a w : Half) : Half :=
  let s : BitVec 17 := a.setWidth 17 + w.setWidth 17
  s.extractLsb' 0 16 + (s.extractLsb' 16 1).setWidth 16

/-- The word a byte contributes (R80): the high byte of a big-endian word when the phase is 0, the low byte when it is 1. -/
def icsWord (phase : Bool) (b : Byte) : Half := if phase then b.setWidth 16 else b.setWidth 16 <<< 8

/-- `ics_upd(sum, phase, X)` (R80). -/
def icsUpd (sum : Half) (phase : Bool) : List Byte → Half × Bool
  | [] => (sum, phase)
  | b :: bs => icsUpd (ocAdd sum (icsWord phase b)) (!phase) bs

/-- `ics(X)` (R81): start from zero, accumulate, complement. -/
def ics (x : List Byte) : Half := icsVal (icsUpd 0#16 false x).1

/-- `ICS_INIT` (R82). -/
def execIcsInit (s : State) : Result := .next { s.done with icsSum := 0#16, icsPhase := false }

/-- `ICS_UPD` (R83): high or low byte is decided by `PHASE`, not by the index in `MEM`. -/
def execIcsUpd (s : State) : Result :=
  .next (
    if s.srcFits s.len.toNat then
      let r := icsUpd s.icsSum s.icsPhase (s.srcBytes 0 s.len.toNat)
      { s.done with icsSum := r.1, icsPhase := r.2 }
    else s.raise .errRange)

/-- `ICS_PUT` (R84): `be16` of the complemented sum at `DST`. -/
def execIcsPut (s : State) : Result :=
  .next (if s.dstFits 2 then (s.dstWrite (be16Bytes (icsVal s.icsSum))).done else s.raise .errRange)

end Sys2Proof.Machine
end

