-- ==== Sys2Proof/Machine/System.lean ====
section
/-! DEFINITION. The system commands (47_system.md): `NOP`, `SRST`. -/

namespace Sys2Proof.Machine

/-- `NOP` (R150): `x[STATUS].CODE <- OK` and nothing else. -/
def execNop (s : State) : Result := .next s.done

/-- The soft reset (R151, 10_state.md R29): everything but `MEM` to the "after `SRST`" column. The parameters are no state
(R30), and the model's own fields are not the command's to change. -/
def softReset (s : State) : State :=
  { s with
    cipher := .tkip, status := .ok,
    src := 0#32, dst := 0#32, len := 0#32, klen := 0#32, olen := 0#32,
    crcAcc := 0xFFFFFFFF#32, icsSum := 0#16, icsPhase := false,
    rc4 := Rc4.reset,
    bssid := Vector.replicate 6 0#8,
    fc := 0#16, sc := 0#16, qc := 0#16,
    a1 := Vector.replicate 6 0#8, a2 := Vector.replicate 6 0#8,
    a3 := Vector.replicate 6 0#8, a4 := Vector.replicate 6 0#8,
    ptk := Vector.replicate 64 0#8, key := Vector.replicate 256 0#8 }

/-- `SRST` (R151). -/
def execSrst (s : State) : Result := .next (softReset s)

end Sys2Proof.Machine
end

