-- ==== Sys2Proof/Machine/Tkip.lean ====
section
/-! DEFINITION. The pipeline's TKIP path (46_tkip.md): `TKIP_DEC`. All words are 16-bit and additions wrap (R146). -/

namespace Sys2Proof.Machine

/-- `Mk16(hi, lo)` (R141). -/
def mk16 (hi lo : Byte) : Half := hi ++ lo

/-- The table entry `tsb(b)` (R142), by its formula; the table of R142 is a test of it (log 16). -/
def tkipSboxByte (b : Byte) : Half := xtime (sbox b) ++ (xtime (sbox b) ^^^ sbox b)

/-- `swap16(v)` (R142). -/
def swap16 (v : Half) : Half := (v <<< 8) ||| (v >>> 8)

/-- The TKIP S-box `_S_` (R142). -/
def tkipSbox (v : Half) : Half :=
  tkipSboxByte (v.extractLsb' 0 8) ^^^ swap16 (tkipSboxByte (v.extractLsb' 8 8))

/-- `RotR1(v)` (R144). -/
def rotR1 (v : Half) : Half := v.rotateRight 1

/-- `IV16` (R140): `TSC1` high, `TSC0` low, from header bytes 0 and 2. -/
def tkipIv16 (s : State) : Half := mk16 (s.bodyByte 0) (s.bodyByte 2)

/-- `IV32` (R140): `TSC2` to `TSC5`, from header bytes 4 to 7. -/
def tkipIv32 (s : State) : Word := le32 (s.bodyByte 4) (s.bodyByte 5) (s.bodyByte 6) (s.bodyByte 7)

/-- The five words `P1K[0..5)` (R143). -/
structure Phase1Key where
  k0 : Half
  k1 : Half
  k2 : Half
  k3 : Half
  k4 : Half
  deriving DecidableEq, Repr

/-- `TK16(k)` (R141) for the words phase 2 uses. -/
def tk16 (tk : Block) (k : Fin 8) : Half := mk16 tk[2 * k.val + 1] tk[2 * k.val]

/-- One pass of phase 1 (R143), each line using the value the line before it has just written. `tkA` to `tkD` are the four
temporal-key words of the pass: `TK16` of 0, 2, 4, 6 on even passes and of 1, 3, 5, 7 on odd ones. -/
def phase1Pass (tkA tkB tkC tkD : Half) (p : Phase1Key) (t : Half) : Phase1Key :=
  let k0 := p.k0 + tkipSbox (p.k4 ^^^ tkA)
  let k1 := p.k1 + tkipSbox (k0 ^^^ tkB)
  let k2 := p.k2 + tkipSbox (k1 ^^^ tkC)
  let k3 := p.k3 + tkipSbox (k2 ^^^ tkD)
  let k4 := p.k4 + tkipSbox (k3 ^^^ tkA) + t
  { k0 := k0, k1 := k1, k2 := k2, k3 := k3, k4 := k4 }

/-- Pass `t` of phase 1 (R143): `q = 2 * (t & 1)` selects the key words. -/
def phase1Step (tk : Block) (p : Phase1Key) (t : Nat) : Phase1Key :=
  if t % 2 = 0 then phase1Pass (tk16 tk 0) (tk16 tk 2) (tk16 tk 4) (tk16 tk 6) p (BitVec.ofNat 16 t)
  else phase1Pass (tk16 tk 1) (tk16 tk 3) (tk16 tk 5) (tk16 tk 7) p (BitVec.ofNat 16 t)

/-- `tkip_phase1(TK, TA, IV32)` (R143): passes 0 to 7. -/
def tkipPhase1 (tk : Block) (ta : Addr) (iv32 : Word) : Phase1Key :=
  (List.range 8).foldl (phase1Step tk)
    { k0 := iv32.extractLsb' 0 16, k1 := iv32.extractLsb' 16 16,
      k2 := mk16 ta[1] ta[0], k3 := mk16 ta[3] ta[2], k4 := mk16 ta[5] ta[4] }

/-- `tkip_phase2(TK, P1K, IV16)` (R144): the 16 bytes of the per-packet RC4 key. `RC4KEY[1]` is computed from `IV16`, not
taken from the header. -/
def tkipPhase2 (tk : Block) (p : Phase1Key) (iv16 : Half) : List Byte :=
  let q5 := p.k4 + iv16
  let a0 := p.k0 + tkipSbox (q5 ^^^ tk16 tk 0)
  let a1 := p.k1 + tkipSbox (a0 ^^^ tk16 tk 1)
  let a2 := p.k2 + tkipSbox (a1 ^^^ tk16 tk 2)
  let a3 := p.k3 + tkipSbox (a2 ^^^ tk16 tk 3)
  let a4 := p.k4 + tkipSbox (a3 ^^^ tk16 tk 4)
  let a5 := q5 + tkipSbox (a4 ^^^ tk16 tk 5)
  let b0 := a0 + rotR1 (a5 ^^^ tk16 tk 6)
  let b1 := a1 + rotR1 (b0 ^^^ tk16 tk 7)
  let b2 := a2 + rotR1 b1
  let b3 := a3 + rotR1 b2
  let b4 := a4 + rotR1 b3
  let b5 := a5 + rotR1 b4
  let hi : Byte := iv16.extractLsb' 8 8
  [hi, (hi ||| 0x20#8) &&& 0x7F#8, iv16.extractLsb' 0 8, (b5 ^^^ tk16 tk 0).extractLsb' 1 8]
    ++ le16Bytes b0 ++ le16Bytes b1 ++ le16Bytes b2 ++ le16Bytes b3 ++ le16Bytes b4 ++ le16Bytes b5

/-- The per-packet RC4 key of the frame (R145): phase 1, then phase 2, both computed anew for each frame. -/
def tkipKey (s : State) : List Byte :=
  tkipPhase2 s.tkipTk (tkipPhase1 s.tkipTk s.a2 (tkipIv32 s)) (tkipIv16 s)

/-- The TKIP path (R145), shared by `TKIP_DEC` and `WPA_DEC`: `ERR_LEN`, `ERR_RANGE`, then the open step of 43_wep.md R102.
`KEY` and `KLEN` are not used. -/
def tkipDecrypt (s : State) : State :=
  if s.len.toNat < 12 then s.raisePipeline .errLen
  else if !s.srcFits s.len.toNat then s.raisePipeline .errRange
  else if !s.dstFits (s.len.toNat - 12) then s.raisePipeline .errRange
  else rc4CrcOpen (tkipKey s) 8 s

/-- `TKIP_DEC` (R145). -/
def execTkipDec (s : State) : Result := .next (tkipDecrypt s)

end Sys2Proof.Machine
end

