-- ==== Sys2Proof/Machine/Wpa.lean ====
section
/-! DEFINITION. The cipher dispatch (44_wpa_ccmp.md R110): `WPA_DEC`. -/

namespace Sys2Proof.Machine

/-- `WPA_DEC` (R110): the CCMP path when `CTRL.CIPHER` is 1, else the TKIP path, with exactly its effects. -/
def execWpaDec (s : State) : Result :=
  match s.cipher with
  | .ccmp => .next (ccmpDecrypt s)
  | .tkip => .next (tkipDecrypt s)

end Sys2Proof.Machine
end

