-- ==== Sys2Proof/Machine/Dispatch.lean ====
section
/-! DEFINITION. The meaning of each command, one arm per constructor of Instr. -/

namespace Sys2Proof.Machine

def exec (i : Instr) (s : State) : Host.Outcome State Fault Refusal :=
  match i with
  | .nop => Sys2Proof.Machine.execNop s
  | .srst => Sys2Proof.Machine.execSrst s
  | .crcInit => Sys2Proof.Machine.execCrcInit s
  | .crcUpd => Sys2Proof.Machine.execCrcUpd s
  | .crcPut => Sys2Proof.Machine.execCrcPut s
  | .icsInit => Sys2Proof.Machine.execIcsInit s
  | .icsUpd => Sys2Proof.Machine.execIcsUpd s
  | .icsPut => Sys2Proof.Machine.execIcsPut s
  | .rc4Ksa => Sys2Proof.Machine.execRc4Ksa s
  | .rc4Xor => Sys2Proof.Machine.execRc4Xor s
  | .bsel => Sys2Proof.Machine.execBsel s
  | .wepDec => Sys2Proof.Machine.execWepDec s
  | .wpaDec => Sys2Proof.Machine.execWpaDec s
  | .tkipDec => Sys2Proof.Machine.execTkipDec s
  | .ccmpDec => Sys2Proof.Machine.execCcmpDec s

end Sys2Proof.Machine
end

