-- ==== Sys2Proof/Machine/Serve.lean ====
section
/-! DEFINITION. Serving one event: a bus transaction (20_memory.md R40, R51) or hardware reset (70_reset_and_hazards.md
R180). -/

namespace Sys2Proof.Machine

/-- Executing the word written to `CMD` (10_state.md R17): the command it encodes, or `ERR_OP` and nothing else
(30_encoding.md R63, 60_exceptions.md R163). -/
def issue (w : Word) (s : State) : Result :=
  match decode w with
  | .ok i => exec i s
  | .error _ => .next (s.raise .errOp)

/-- The end of a transaction, in the model's own fields: its response is recorded (log 10) and the event counted (log 4). -/
def State.answered (s : State) (r : Reply) : State := { s with reply := some r, draws := s.draws + 1 }

/-- A transaction's end when its command answers a next state; a stop stays a stop. -/
def answerOutcome (o : Result) (r : Reply) : Result :=
  match o with
  | .next t => .next (t.answered r)
  | .fault f => .fault f
  | .refused x => .refused x

/-- `BusRead(off)` (R40, R46): the data and no state change, or `ERR` with data 0. -/
def serveRead (bits off : Nat) (s : State) : Result :=
  match accessReg s bits off with
  | none => .next (s.answered (.read .err 0#32))
  | some r => .next (s.answered (.read .okay (readReg s r)))

/-- `BusWrite(off, v)` (R40): a command for `CMD`, executed to completion before the write completes (R51), else a register
write; `ERR` and no state change where nothing is mapped. -/
def serveWrite (bits off : Nat) (v : Word) (s : State) : Result :=
  match accessReg s bits off with
  | none => .next (s.answered (.write .err))
  | some .cmd => answerOutcome (issue v s) (.write .okay)
  | some r => .next ((writeReg s r v).answered (.write .okay))

/-- Hardware reset (70_reset_and_hazards.md R180, R181; log 8): every register at its reset value and no byte of `MEM`
defined. The parameters, the host's offered events and the event count are not the block's state. -/
def hardReset (s : State) : State :=
  { State.resetWith s.cfg with inbox := s.inbox, draws := s.draws + 1 }

/-- Serving one event. -/
def serve (e : Event) (s : State) : Result :=
  match e with
  | .read bits off => serveRead bits off s
  | .write bits off v => serveWrite bits off v s
  | .hardReset => .next (hardReset s)

/-- `BusWrite(0x000C, w)` offered before everything else: how a command reaches the block (30_encoding.md R60). -/
def State.offerCommand (s : State) (w : Word) : State := { s with inbox := .write 32 0x0C w :: s.inbox }

end Sys2Proof.Machine
end

