-- ==== Sys2Proof/Machine/Step.lean ====
section
/-! DEFINITION. One step of the block: it serves the event the host offers next, in the one total order of 20_memory.md R52. -/

namespace Sys2Proof.Machine

/-- One step (10_state.md R13: the step takes the next bus transaction as its input). With nothing offered the block is
idle and keeps all its state (60_exceptions.md R172; log 9). -/
def step (s : State) : Host.Outcome State Fault Refusal :=
  match s.inbox with
  | [] => .next s
  | e :: rest => serve e { s with inbox := rest }

/-- The state in which the very next step executes the command word made of the `nbits` low bits of `w`: that word is
offered as a write to `CMD` (log 2). -/
def State.withFetchWord (s : State) (nbits w : Nat) : State := s.offerCommand (BitVec.ofNat 32 (w % 2 ^ nbits))

end Sys2Proof.Machine
end

