-- ==== Sys2Proof/WellFormed.lean ====
section
/-! DEFINITION. What is well formed: a command, a command word, a configuration. -/

namespace Sys2Proof

/-- Every command is well formed: it carries no operand field and no immediate (30_encoding.md R62), so its constructor
is all there is to check. -/
def Instr.wf : Instr → Bool
  | .nop => true
  | .srst => true
  | .crcInit => true
  | .crcUpd => true
  | .crcPut => true
  | .icsInit => true
  | .icsUpd => true
  | .icsPut => true
  | .rc4Ksa => true
  | .rc4Xor => true
  | .bsel => true
  | .wepDec => true
  | .wpaDec => true
  | .tkipDec => true
  | .ccmpDec => true

/-- A command word is well formed when its `ZERO` field is 0 and its `OPCODE` is one of the fifteen (R60, R61, R63). -/
def wordWf (w : Word) : Bool := zeroField w == 0#24 && (opcodeInstr (opcodeField w)).isSome

/-- A legal `MEM_SIZE` (00_scope.md R5): a multiple of 4 from 64 to 2^31. The other two parameters are legal by their
types. -/
def Config.wf (c : Config) : Bool := c.memSize % 4 == 0 && decide (64 ≤ c.memSize) && decide (c.memSize ≤ 2 ^ 31)

end Sys2Proof
end

