-- ==== Sys2Proof/Safety.lean ====
section
/-! DEFINITION. What counts as a well-kept state and as a safe step, and the vocabulary of the statements: byte ranges read
one byte at a time, the RC4 keystream byte by byte, the two decryption paths, and the tables of the spec's prose. -/

namespace Sys2Proof.Machine

/-! ### Well-kept states and safe steps -/

/-- A state the block can be in (93_implementation_defined.md U9): the buffer in its canonical form with no byte outside
`MEM` (20_memory.md R48), `S` a permutation of the byte values (10_state.md R20), the parameters legal (00_scope.md R5). -/
structure State.Inv (s : State) : Prop where
  memCanonical : s.mem.wf
  memInRange : ∀ c ∈ s.mem, c.1 < s.cfg.memSize
  permutation : s.rc4.s.toList.Perm Rc4.identity.toList
  cfgLegal : s.cfg.wf = true

/-- The outcome is a next state: the machine neither faults nor refuses (47_system.md R153). -/
def isNext (o : Result) : Bool :=
  match o with
  | .next _ => true
  | .fault _ => false
  | .refused _ => false

/-! ### Memory, byte by byte -/

/-- The `n` bytes of `MEM` from index `a`, each through the read of one byte. -/
def State.bytes (s : State) (a n : Nat) : List Byte := (List.range n).map fun k => s.byteAt (a + k)

/-- Every byte of `MEM` outside the `n` bytes from index `a` reads in `t` as it does in `s`. -/
def sameOutside (s t : State) (a n : Nat) : Prop := ∀ x, x < a ∨ a + n ≤ x → t.byteAt x = s.byteAt x

/-- The first `KLEN` bytes of `KEY`, one at a time. -/
def State.password (s : State) : List Byte := (List.range s.klen.toNat).map fun k => s.key.toList.getD k 0#8

/-! ### The RC4 keystream, byte by byte (42_rc4.md R90) -/

/-- The engine after `n` keystream bytes. -/
def rc4Advance : Nat → Rc4 → Rc4
  | 0, r => r
  | n + 1, r => rc4Advance n (rc4Next r).2

/-- Keystream byte `k`, counted from 0. -/
def rc4StreamByte (r : Rc4) (k : Nat) : Byte := (rc4Next (rc4Advance k r)).1

/-! ### The two decryption paths -/

/-- Command `i` opens the frame body of `s` with RC4 and CRC-32 (43_wep.md R102): under key `key`, with the encrypted part at
offset `h`. -/
def opensWith (i : Instr) (s : State) (h : Nat) (key : List Byte) : Prop :=
  (i = .wepDec ∧ h = s.cfg.wepHdrLen.toNat ∧ key = s.bytes s.src.toNat 3 ++ s.password) ∨
  ((i = .tkipDec ∨ (i = .wpaDec ∧ s.cipher = .tkip)) ∧ h = 8 ∧ key = tkipKey s)

/-- The checks of R103 and 46_tkip.md R145 pass. -/
def openChecksPass (i : Instr) (s : State) (h : Nat) : Prop :=
  h + 4 ≤ s.len.toNat ∧ (i = .wepDec → s.klen.toNat ≤ 253) ∧
  s.src.toNat + s.len.toNat ≤ s.cfg.memSize ∧ s.dst.toNat + (s.len.toNat - h - 4) ≤ s.cfg.memSize

/-- The candidate plaintext of R102, byte by byte: all of the encrypted part but its last 4 bytes. -/
def openPlain (s : State) (h : Nat) (key : List Byte) : List Byte :=
  (List.range (s.len.toNat - h - 4)).map fun k => s.byteAt (s.src.toNat + h + k) ^^^ rc4StreamByte (rc4Ksa key) k

/-- The decrypted check value of R102: the last 4 bytes of the encrypted part. -/
def openIcv (s : State) (h : Nat) (key : List Byte) : List Byte :=
  (List.range 4).map fun k =>
    s.byteAt (s.src.toNat + h + (s.len.toNat - h - 4 + k))
      ^^^ rc4StreamByte (rc4Ksa key) (s.len.toNat - h - 4 + k)

/-- Command `i` takes the CCMP path in `s` (44_wpa_ccmp.md R110). -/
def takesCcmpPath (i : Instr) (s : State) : Prop := i = .ccmpDec ∨ (i = .wpaDec ∧ s.cipher = .ccmp)

/-- The checks of 44_wpa_ccmp.md R117 pass. -/
def ccmpChecksPass (s : State) : Prop :=
  16 ≤ s.len.toNat ∧ s.len.toNat - 16 ≤ 65535 ∧
  s.src.toNat + s.len.toNat ≤ s.cfg.memSize ∧ s.dst.toNat + (s.len.toNat - 16) ≤ s.cfg.memSize

/-- The decrypted data of a CCMP body (R115): the encrypted data xor the keystream. -/
def ccmpPlain (s : State) : List Byte :=
  xorBytes (s.bytes (s.src.toNat + 8) (s.len.toNat - 16))
    (ccmKeystream s.ccmpTk (ccmpNonce s) (s.len.toNat - 16))

/-- The received MIC of a CCMP body (R115): the trailing 8 bytes xor the first 8 of `S_0`. -/
def ccmpReceived (s : State) : List Byte :=
  xorBytes (s.bytes (s.src.toNat + 8 + (s.len.toNat - 16)) 8) ((ccmKeyBlock s.ccmpTk (ccmpNonce s) 0).toList.take 8)

/-- The MIC computed over the AAD and the decrypted data (R116). -/
def ccmpComputed (s : State) : List Byte := ccmMac s.ccmpTk (ccmpNonce s) (ccmpAad s) (ccmpPlain s)

/-- Two states that give a pipeline command the same operand registers and parameters. -/
def sameOperands (s u : State) : Prop := u.src = s.src ∧ u.dst = s.dst ∧ u.len = s.len ∧ u.cfg = s.cfg

/-- The frame bodies of two states read the same, but for the offsets in `ignored`. -/
def sameBody (s u : State) (ignored : List Nat) : Prop :=
  ∀ k, k < s.len.toNat → k ∉ ignored → u.byteAt (s.src.toNat + k) = s.byteAt (s.src.toNat + k)

/-- Two outcomes of a pipeline command that the host cannot tell apart at `DST`, `OLEN` and `STATUS`. -/
def sameDelivery (s t t' : State) : Prop :=
  t'.status = t.status ∧ t'.olen = t.olen ∧
  ∀ k, k < t.olen.toNat → t'.byteAt (s.dst.toNat + k) = t.byteAt (s.dst.toNat + k)

/-- Every byte of the source range has been written since hardware reset (20_memory.md R56, 70_reset_and_hazards.md R190). -/
def sourceWritten (s : State) : Prop :=
  ∀ a, s.src.toNat ≤ a → a < s.src.toNat + s.len.toNat → (s.mem.lookup a).isSome = true

/-! ### Tables of the prose -/

/-- The fifteen command words: the table of 30_encoding.md R61. -/
def commandTable : List (Word × Instr) := [
  (0x00000000#32, .nop), (0x00000001#32, .srst),
  (0x00000010#32, .crcInit), (0x00000011#32, .crcUpd), (0x00000012#32, .crcPut),
  (0x00000020#32, .icsInit), (0x00000021#32, .icsUpd), (0x00000022#32, .icsPut),
  (0x00000030#32, .rc4Ksa), (0x00000031#32, .rc4Xor),
  (0x00000040#32, .bsel), (0x00000041#32, .wepDec), (0x00000042#32, .wpaDec),
  (0x00000043#32, .tkipDec), (0x00000044#32, .ccmpDec)]

/-- The number of bytes a command writes at `DST` when it ends in `OK` (20_memory.md R46). -/
def destLength (i : Instr) (s : State) : Nat :=
  match i with
  | .crcPut => 4
  | .icsPut => 2
  | .rc4Xor => s.len.toNat
  | .wepDec => s.len.toNat - s.cfg.wepHdrLen.toNat - 4
  | .tkipDec => s.len.toNat - 12
  | .ccmpDec => s.len.toNat - 16
  | .wpaDec =>
    match s.cipher with
    | .ccmp => s.len.toNat - 16
    | .tkip => s.len.toNat - 12
  | .nop | .srst | .crcInit | .crcUpd | .icsInit | .icsUpd | .rc4Ksa | .bsel => 0

/-- `LE32(b0..b3) = b0 | b1<<8 | b2<<16 | b3<<24`, as 00_scope.md R6 writes it. -/
def le32Or (b0 b1 b2 b3 : Byte) : Word :=
  b0.setWidth 32 ||| b1.setWidth 32 <<< 8 ||| b2.setWidth 32 <<< 16 ||| b3.setWidth 32 <<< 24

/-- Word `w[t]` of the key schedule (45_aes128.md R132): bytes `4t` to `4t + 3` of the round keys in order. -/
def keyScheduleWord (k : Block) (t : Nat) : List Byte :=
  (((keyExpand k).flatMap fun b => b.toList).drop (4 * t)).take 4

/-- The ten round constants of 45_aes128.md R132. -/
def roundConstants : List Byte := [0x01#8, 0x02#8, 0x04#8, 0x08#8, 0x10#8, 0x20#8, 0x40#8, 0x80#8, 0x1B#8, 0x36#8]

/-- The IPv4 header of the example of 41_inet_checksum.md R84, with the two bytes of its checksum field. -/
def exampleHeader (field : List Byte) : List Byte :=
  [0x45#8, 0x00#8, 0x00#8, 0x73#8, 0x00#8, 0x00#8, 0x40#8, 0x00#8, 0x40#8, 0x11#8] ++ field
    ++ [0xC0#8, 0xA8#8, 0x00#8, 0x01#8, 0xC0#8, 0xA8#8, 0x00#8, 0xC7#8]

/-- The key of the example of 45_aes128.md R132. -/
def exampleScheduleKey : Block := #v[
  0x2B#8, 0x7E#8, 0x15#8, 0x16#8, 0x28#8, 0xAE#8, 0xD2#8, 0xA6#8,
  0xAB#8, 0xF7#8, 0x15#8, 0x88#8, 0x09#8, 0xCF#8, 0x4F#8, 0x3C#8]

/-- The words `w[t]` that the example of 45_aes128.md R132 lists. -/
def exampleScheduleWords : List (Nat × List Byte) := [
  (4, [0xA0#8, 0xFA#8, 0xFE#8, 0x17#8]), (5, [0x88#8, 0x54#8, 0x2C#8, 0xB1#8]),
  (6, [0x23#8, 0xA3#8, 0x39#8, 0x39#8]), (7, [0x2A#8, 0x6C#8, 0x76#8, 0x05#8]),
  (8, [0xF2#8, 0xC2#8, 0x95#8, 0xF2#8]), (40, [0xD0#8, 0x14#8, 0xF9#8, 0xA8#8]),
  (41, [0xC9#8, 0xEE#8, 0x25#8, 0x89#8]), (42, [0xE1#8, 0x3F#8, 0x0C#8, 0xC8#8]),
  (43, [0xB6#8, 0x63#8, 0x0C#8, 0xA6#8])]

/-- Which command can report which code: the table of 60_exceptions.md R161. -/
def mayReport : Instr → Code → Bool
  | .nop, .ok | .srst, .ok | .crcInit, .ok | .icsInit, .ok | .bsel, .ok => true
  | .crcUpd, .ok | .crcPut, .ok | .icsUpd, .ok | .icsPut, .ok | .rc4Xor, .ok => true
  | .crcUpd, .errRange | .crcPut, .errRange | .icsUpd, .errRange | .icsPut, .errRange | .rc4Xor, .errRange => true
  | .rc4Ksa, .ok | .rc4Ksa, .errKlen => true
  | .wepDec, .ok | .wepDec, .fail | .wepDec, .errLen | .wepDec, .errKlen | .wepDec, .errRange => true
  | .tkipDec, .ok | .tkipDec, .fail | .tkipDec, .errLen | .tkipDec, .errRange => true
  | .ccmpDec, .ok | .ccmpDec, .fail | .ccmpDec, .errLen | .ccmpDec, .errRange => true
  | .wpaDec, .ok | .wpaDec, .fail | .wpaDec, .errLen | .wpaDec, .errRange => true
  | _, _ => false

/-- The bits of a mapped word that are used (10_state.md R11, column "bits used"). -/
def usedBits : Reg → Word
  | .ctrl => 0x00000001#32
  | .status => 0x0000000F#32
  | .icsAcc => 0x0001FFFF#32
  | .icsVal | .bssidHi | .fc | .sc | .qc => 0x0000FFFF#32
  | .addrHi _ => 0x0000FFFF#32
  | .id | .cmd | .src | .dst | .len | .klen | .olen | .crcAcc | .crcVal | .bssidLo => 0xFFFFFFFF#32
  | .addrLo _ | .key _ | .ptk _ | .mem _ => 0xFFFFFFFF#32

/-- The mapped words that ignore writes, `CMD` among them: it stores nothing (10_state.md R11, R17). -/
def ignoresWrites : Reg → Bool
  | .id | .status | .cmd | .olen | .crcVal | .icsVal | .bssidLo | .bssidHi => true
  | _ => false

/-- The read-only words computed from a writable one (10_state.md R18, R19). -/
def derivedFrom : Reg → Option Reg
  | .crcVal => some .crcAcc
  | .icsVal => some .icsAcc
  | _ => none

/-- Every register of `t` holds its value after hardware reset (10_state.md R29); `MEM` is not spoken of. -/
def registersReset (t : State) : Prop :=
  t.cipher = .tkip ∧ t.status = .ok ∧
  t.src = 0#32 ∧ t.dst = 0#32 ∧ t.len = 0#32 ∧ t.klen = 0#32 ∧ t.olen = 0#32 ∧
  t.crcAcc = 0xFFFFFFFF#32 ∧ t.icsSum = 0#16 ∧ t.icsPhase = false ∧
  (∀ k : Byte, sboxAt t.rc4.s k = k) ∧ t.rc4.i = 0#8 ∧ t.rc4.j = 0#8 ∧
  t.bssid.toList = List.replicate 6 0#8 ∧ t.fc = 0#16 ∧ t.sc = 0#16 ∧ t.qc = 0#16 ∧
  t.a1.toList = List.replicate 6 0#8 ∧ t.a2.toList = List.replicate 6 0#8 ∧
  t.a3.toList = List.replicate 6 0#8 ∧ t.a4.toList = List.replicate 6 0#8 ∧
  t.ptk.toList = List.replicate 64 0#8 ∧ t.key.toList = List.replicate 256 0#8

/-! ### The algorithms of the units, as relations between one value and the next -/

/-- `after` is `before` with the entries `a` and `b` exchanged (42_rc4.md R90); when they are the same, nothing changes. -/
def exchanged (before after : Vector Byte 256) (a b : Byte) : Prop :=
  sboxAt after a = sboxAt before b ∧ sboxAt after b = sboxAt before a ∧
  ∀ k, k ≠ a → k ≠ b → sboxAt after k = sboxAt before k

/-- The 16 bytes of round key `r` (45_aes128.md R132): words `w[4r]` to `w[4r + 3]`. -/
def roundKeyBytes (k : Block) (r : Nat) : List Byte :=
  keyScheduleWord k (4 * r) ++ keyScheduleWord k (4 * r + 1) ++ keyScheduleWord k (4 * r + 2) ++ keyScheduleWord k (4 * r + 3)

/-- `Mk16(x[n + 1], x[n])` (46_tkip.md R141): a little-endian byte pair as a 16-bit word. -/
def pairAt (x : List Byte) (n : Nat) : Half := (x.getD (n + 1) 0#8).setWidth 16 <<< 8 ||| (x.getD n 0#8).setWidth 16

/-- Pass `t` of phase 1 takes the words `p` to the words `p'` (46_tkip.md R143), `q = 2 * (t & 1)`. -/
def phase1PassTakes (tk : List Byte) (t : Nat) (p p' : Phase1Key) : Prop :=
  p'.k0 = p.k0 + tkipSbox (p.k4 ^^^ pairAt tk (0 + 2 * (t % 2))) ∧
  p'.k1 = p.k1 + tkipSbox (p'.k0 ^^^ pairAt tk (4 + 2 * (t % 2))) ∧
  p'.k2 = p.k2 + tkipSbox (p'.k1 ^^^ pairAt tk (8 + 2 * (t % 2))) ∧
  p'.k3 = p.k3 + tkipSbox (p'.k2 ^^^ pairAt tk (12 + 2 * (t % 2))) ∧
  p'.k4 = p.k4 + tkipSbox (p'.k3 ^^^ pairAt tk (0 + 2 * (t % 2))) + BitVec.ofNat 16 t

/-- `RotR1(v)` as 46_tkip.md R144 writes it. -/
def rotateRightOne (v : Half) : Half := v >>> 1 ||| v <<< 15

/-- Phase 2 (46_tkip.md R144): from `P1K` and `IV16`, `PPK` holds the words `a` after the six lines with `_S_`, and the words
`b` at the end. -/
def phase2Takes (tk : List Byte) (p : Phase1Key) (iv16 : Half) (a b : Nat → Half) : Prop :=
  a 0 = p.k0 + tkipSbox ((p.k4 + iv16) ^^^ pairAt tk 0) ∧
  a 1 = p.k1 + tkipSbox (a 0 ^^^ pairAt tk 2) ∧
  a 2 = p.k2 + tkipSbox (a 1 ^^^ pairAt tk 4) ∧
  a 3 = p.k3 + tkipSbox (a 2 ^^^ pairAt tk 6) ∧
  a 4 = p.k4 + tkipSbox (a 3 ^^^ pairAt tk 8) ∧
  a 5 = (p.k4 + iv16) + tkipSbox (a 4 ^^^ pairAt tk 10) ∧
  b 0 = a 0 + rotateRightOne (a 5 ^^^ pairAt tk 12) ∧
  b 1 = a 1 + rotateRightOne (b 0 ^^^ pairAt tk 14) ∧
  b 2 = a 2 + rotateRightOne (b 1) ∧
  b 3 = a 3 + rotateRightOne (b 2) ∧
  b 4 = a 4 + rotateRightOne (b 3) ∧
  b 5 = a 5 + rotateRightOne (b 4)

/-- The bytes of `RC4KEY` from the final words of `PPK` (46_tkip.md R144). -/
def rc4KeyOf (tk : List Byte) (iv16 : Half) (b : Nat → Half) : List Byte :=
  [iv16.extractLsb' 8 8, (iv16.extractLsb' 8 8 ||| 0x20#8) &&& 0x7F#8, iv16.extractLsb' 0 8,
    ((b 5 ^^^ pairAt tk 0) >>> 1).extractLsb' 0 8]
    ++ (List.range 6).flatMap fun k => [(b k).extractLsb' 0 8, (b k).extractLsb' 8 8]

/-- From number `start` on, `B` holds `n` blocks: the bytes of `x` with zeros to a multiple of 16 (44_wpa_ccmp.md R116). -/
def holdsBlocks (B : Nat → Block) (start n : Nat) (x : List Byte) : Prop :=
  ∀ c k, c < n → k < 16 → (B (start + c)).toList.getD k 0#8 = x.getD (16 * c + k) 0#8

/-! ### Examples the rules list -/

/-- The key of the examples of 42_rc4.md R91 and R92: "Key". -/
def rc4ExampleKey : List Byte := [0x4B#8, 0x65#8, 0x79#8]

/-- The message of the example of 42_rc4.md R92: "Plaintext". -/
def rc4ExampleText : List Byte := [0x50#8, 0x6C#8, 0x61#8, 0x69#8, 0x6E#8, 0x74#8, 0x65#8, 0x78#8, 0x74#8]

/-- `j` after the first `n` steps of the key schedule (42_rc4.md R91). -/
def scheduleIndex (key : List Byte) (n : Nat) : Byte :=
  ((List.range n).foldl (rc4KsaStep key) (Rc4.identity, 0#8)).2

/-- The four examples of 45_aes128.md R134: `K`, `B` and `AES128_Enc(K, B)`. -/
def aesExamples : List (Block × Block × Block) := [
  (#v[0x00#8, 0x01#8, 0x02#8, 0x03#8, 0x04#8, 0x05#8, 0x06#8, 0x07#8,
      0x08#8, 0x09#8, 0x0A#8, 0x0B#8, 0x0C#8, 0x0D#8, 0x0E#8, 0x0F#8],
    #v[0x00#8, 0x11#8, 0x22#8, 0x33#8, 0x44#8, 0x55#8, 0x66#8, 0x77#8,
      0x88#8, 0x99#8, 0xAA#8, 0xBB#8, 0xCC#8, 0xDD#8, 0xEE#8, 0xFF#8],
    #v[0x69#8, 0xC4#8, 0xE0#8, 0xD8#8, 0x6A#8, 0x7B#8, 0x04#8, 0x30#8,
      0xD8#8, 0xCD#8, 0xB7#8, 0x80#8, 0x70#8, 0xB4#8, 0xC5#8, 0x5A#8]),
  (#v[0x2B#8, 0x7E#8, 0x15#8, 0x16#8, 0x28#8, 0xAE#8, 0xD2#8, 0xA6#8,
      0xAB#8, 0xF7#8, 0x15#8, 0x88#8, 0x09#8, 0xCF#8, 0x4F#8, 0x3C#8],
    #v[0x32#8, 0x43#8, 0xF6#8, 0xA8#8, 0x88#8, 0x5A#8, 0x30#8, 0x8D#8,
      0x31#8, 0x31#8, 0x98#8, 0xA2#8, 0xE0#8, 0x37#8, 0x07#8, 0x34#8],
    #v[0x39#8, 0x25#8, 0x84#8, 0x1D#8, 0x02#8, 0xDC#8, 0x09#8, 0xFB#8,
      0xDC#8, 0x11#8, 0x85#8, 0x97#8, 0x19#8, 0x6A#8, 0x0B#8, 0x32#8]),
  (#v[0x00#8, 0x00#8, 0x00#8, 0x00#8, 0x00#8, 0x00#8, 0x00#8, 0x00#8,
      0x00#8, 0x00#8, 0x00#8, 0x00#8, 0x00#8, 0x00#8, 0x00#8, 0x00#8],
    #v[0x00#8, 0x00#8, 0x00#8, 0x00#8, 0x00#8, 0x00#8, 0x00#8, 0x00#8,
      0x00#8, 0x00#8, 0x00#8, 0x00#8, 0x00#8, 0x00#8, 0x00#8, 0x00#8],
    #v[0x66#8, 0xE9#8, 0x4B#8, 0xD4#8, 0xEF#8, 0x8A#8, 0x2C#8, 0x3B#8,
      0x88#8, 0x4C#8, 0xFA#8, 0x59#8, 0xCA#8, 0x34#8, 0x2B#8, 0x2E#8]),
  (#v[0xFF#8, 0xFF#8, 0xFF#8, 0xFF#8, 0xFF#8, 0xFF#8, 0xFF#8, 0xFF#8,
      0xFF#8, 0xFF#8, 0xFF#8, 0xFF#8, 0xFF#8, 0xFF#8, 0xFF#8, 0xFF#8],
    #v[0xFF#8, 0xFF#8, 0xFF#8, 0xFF#8, 0xFF#8, 0xFF#8, 0xFF#8, 0xFF#8,
      0xFF#8, 0xFF#8, 0xFF#8, 0xFF#8, 0xFF#8, 0xFF#8, 0xFF#8, 0xFF#8],
    #v[0xBC#8, 0xBF#8, 0x21#8, 0x7C#8, 0xB2#8, 0x80#8, 0xCF#8, 0x30#8,
      0xB2#8, 0x51#8, 0x70#8, 0x52#8, 0x19#8, 0x3A#8, 0xB9#8, 0x79#8])]

/-- `TK = 00 01 .. 0F`, of the vectors of 46_tkip.md R144. -/
def tkipExampleTk : Block := #v[0x00#8, 0x01#8, 0x02#8, 0x03#8, 0x04#8, 0x05#8, 0x06#8, 0x07#8,
  0x08#8, 0x09#8, 0x0A#8, 0x0B#8, 0x0C#8, 0x0D#8, 0x0E#8, 0x0F#8]

/-- `TA = 10:22:33:44:55:66`, of the vectors of 46_tkip.md R144. -/
def tkipExampleTa : Addr := #v[0x10#8, 0x22#8, 0x33#8, 0x44#8, 0x55#8, 0x66#8]

/-- A vector of 46_tkip.md R144. -/
structure TkipVector where
  tk : Block
  ta : Addr
  iv32 : Word
  iv16 : Half
  p1k : Phase1Key
  rc4Key : List Byte
  deriving DecidableEq, Repr

/-- The four vectors of 46_tkip.md R144. -/
def tkipVectors : List TkipVector := [
  ⟨tkipExampleTk, tkipExampleTa, 0x00000000#32, 0x0000#16, ⟨0x3DD2#16, 0x016E#16, 0x76F4#16, 0x8697#16, 0xB2E8#16⟩,
    [0x00#8, 0x20#8, 0x00#8, 0x33#8, 0xEA#8, 0x8D#8, 0x2F#8, 0x60#8,
      0xCA#8, 0x6D#8, 0x13#8, 0x74#8, 0x23#8, 0x4A#8, 0x66#8, 0x0B#8]⟩,
  ⟨tkipExampleTk, tkipExampleTa, 0x00000000#32, 0x0001#16, ⟨0x3DD2#16, 0x016E#16, 0x76F4#16, 0x8697#16, 0xB2E8#16⟩,
    [0x00#8, 0x20#8, 0x01#8, 0x90#8, 0xFF#8, 0xDC#8, 0x31#8, 0x43#8,
      0x89#8, 0xA9#8, 0xD9#8, 0xD0#8, 0x74#8, 0xFD#8, 0x20#8, 0xAA#8]⟩,
  ⟨#v[0x63#8, 0x89#8, 0x3B#8, 0x25#8, 0x08#8, 0x40#8, 0xB8#8, 0xAE#8,
      0x0B#8, 0xD0#8, 0xFA#8, 0x7E#8, 0x61#8, 0xD2#8, 0x78#8, 0x3E#8],
    #v[0x64#8, 0xF2#8, 0xEA#8, 0xED#8, 0xDC#8, 0x25#8], 0x20DCFD43#32, 0xFFFF#16,
    ⟨0x7C67#16, 0x49D7#16, 0x9724#16, 0xB5E9#16, 0xB4F1#16⟩,
    [0xFF#8, 0x7F#8, 0xFF#8, 0x93#8, 0x81#8, 0x0F#8, 0xC6#8, 0xE5#8,
      0x8F#8, 0x5D#8, 0xD3#8, 0x26#8, 0x25#8, 0x15#8, 0x44#8, 0xCE#8]⟩,
  ⟨tkipExampleTk, tkipExampleTa, 0x12345678#32, 0x9ABC#16, ⟨0x4767#16, 0x96CC#16, 0x621A#16, 0x6A0D#16, 0xA993#16⟩,
    [0x9A#8, 0x3A#8, 0xBC#8, 0xD9#8, 0x17#8, 0x4C#8, 0x53#8, 0x2E#8,
      0x6A#8, 0xA7#8, 0xC2#8, 0x0D#8, 0xDB#8, 0x11#8, 0xB3#8, 0x54#8]⟩]

/-- The trace of 46_tkip.md R143: the five words after passes 0 to 7. -/
def phase1Trace : List Phase1Key := [
  ⟨0x770E#16, 0x0E29#16, 0xD79D#16, 0x2469#16, 0x0EC3#16⟩,
  ⟨0x094B#16, 0x499C#16, 0x2790#16, 0x6EDE#16, 0x62AD#16⟩,
  ⟨0x3094#16, 0xAB33#16, 0xB8D9#16, 0xD192#16, 0x70E0#16⟩,
  ⟨0xD24A#16, 0x02B0#16, 0xA8DE#16, 0xD5BA#16, 0x4A26#16⟩,
  ⟨0x0DC9#16, 0x346C#16, 0x9869#16, 0xBA3D#16, 0xB5D0#16⟩,
  ⟨0xB121#16, 0x863F#16, 0x6884#16, 0x22D0#16, 0x22FA#16⟩,
  ⟨0xE15C#16, 0xF5AB#16, 0x47E9#16, 0xEB97#16, 0xBC96#16⟩,
  ⟨0x3DD2#16, 0x016E#16, 0x76F4#16, 0x8697#16, 0xB2E8#16⟩]

/-- The words after passes 0 to `n` of phase 1, from the words of the trace of 46_tkip.md R143. -/
def phase1After (n : Nat) : Phase1Key :=
  (List.range (n + 1)).foldl (phase1Step tkipExampleTk) ⟨0x0000#16, 0x0000#16, 0x2210#16, 0x4433#16, 0x6655#16⟩

/-- The words of `PPK` that 46_tkip.md R144 lists for the second vector, after the six lines with `_S_`. -/
def phase2ExampleMiddle : List Half := [0xC9CA#16, 0x5939#16, 0x07F1#16, 0xFC15#16, 0x1508#16, 0x2B66#16]

/-- The words of `PPK` that 46_tkip.md R144 lists for the second vector, at the end. -/
def phase2ExampleEnd : List Half := [0xDCFF#16, 0x4331#16, 0xA989#16, 0xD0D9#16, 0xFD74#16, 0xAA20#16]

end Sys2Proof.Machine
end

