-- ==== Sys2Proof/Certificates/Slice0/Obligations.lean ====
section
/-! DEFINITION. The statements about the block, from the numbered rules of spec/. The vocabulary is in Sys2Proof/Safety.lean.
Where a statement compares two commands or two runs that read `MEM`, it asks that every byte read has been written, or that the
bytes read are equal: an unwritten byte has a free value (log 3). -/

open Sys2Proof Sys2Proof.Machine

/-! ### Reset, steps and invariants -/

/-- 70_reset_and_hazards.md R181 with 10_state.md R29: hardware reset, offered in any state, leaves every register at its
stated value, the derived read-only registers follow, no byte of `MEM` is defined, and a `CRC_UPD` without `CRC_INIT`
then computes a correct CRC-32. The state the machine starts in holds the same values. (That reset arrives as an offered
event is the model's choice: log 8.) -/
def Obligations.HardResetLeavesTheStatedValues : Prop :=
  registersReset State.reset ∧ (∀ a, State.reset.mem.lookup a = none) ∧
  ∀ (s : State) (rest : List Event), s.inbox = .hardReset :: rest →
    ∃ t, step s = .next t ∧ registersReset t ∧ (∀ a, t.mem.lookup a = none) ∧
      readReg t .id = 0x43434231#32 ∧ readReg t .status = 0#32 ∧
      readReg t .crcVal = 0#32 ∧ readReg t .icsVal = 0x0000FFFF#32 ∧
      readReg t .bssidLo = 0#32 ∧ readReg t .bssidHi = 0#32 ∧
      ∀ u : State, u.crcAcc = t.crcAcc → u.src.toNat + u.len.toNat ≤ u.cfg.memSize →
        ∃ v, exec .crcUpd u = .next v ∧ readReg v .crcVal = crc32 (u.bytes u.src.toNat u.len.toNat)

/-- 47_system.md R151 and 70_reset_and_hazards.md R182: `SRST`, word `0x00000001`, completes in every state and is hardware
reset with `MEM` kept, which hardware reset leaves undefined; its `STATUS` is `OK`. (The model's own fields are not the
command's to change: log 4, 8 and 10.) -/
def Obligations.SoftResetIsHardResetKeepingMem : Prop :=
  decode 0x00000001#32 = .ok .srst ∧
  ∀ s : State, ∃ t, exec .srst s = .next t ∧
    t = { hardReset s with mem := s.mem, draws := s.draws, reply := s.reply } ∧
    registersReset t ∧ (∀ a, t.byteAt a = s.byteAt a) ∧ (∀ a, (hardReset s).mem.lookup a = none)

/-- The state after reset is well kept (93_implementation_defined.md U9; the default parameters of 00_scope.md R5). -/
def Obligations.ResetStateIsWellKept : Prop := State.reset.Inv

/-- Every step keeps a well-kept state well kept: the buffer canonical and inside `MEM`, `S` a permutation (10_state.md R20),
the parameters legal. -/
def Obligations.StepKeepsStateWellKept : Prop := ∀ s t : State, s.Inv → step s = .next t → t.Inv

/-- 10_state.md R17: a word that decodes to `i`, written to `CMD`, makes the step `exec i`, after which only the response and
the event count are set (log 4, 10); `CMD` stores nothing: it reads 0, with no effect. `withFetchWord`, the model's way to
place a command (log 2), offers exactly such a write. -/
def Obligations.StepRunsTheDecodedCommand : Prop :=
  (∀ (s t : State) (w : Word) (rest : List Event) (i : Instr),
    s.inbox = .write 32 0x0C w :: rest → decode w = .ok i → exec i { s with inbox := rest } = .next t →
    step s = .next { t with reply := some (.write .okay), draws := s.draws + 1 }) ∧
  (∀ (s t : State) (n w : Nat) (i : Instr), decodeTableWord n w = some i → exec i s = .next t →
    step (s.withFetchWord n w) = .next { t with reply := some (.write .okay), draws := s.draws + 1 }) ∧
  ∀ (s : State) (rest : List Event), s.inbox = .read 32 0x0C :: rest →
    step s = .next { s with inbox := rest, reply := some (.read .okay 0#32), draws := s.draws + 1 }

/-- 30_encoding.md R63: the words not listed in R61 are those with a non-zero `ZERO` field or an unused opcode; such a
word, written to `CMD`, sets `STATUS.CODE` to `ERR_OP` and changes nothing else, and the next command executes as it
would have. The bus answers `OKAY` (60_exceptions.md R169). (`inbox`, `draws` and `reply` are the model's own fields: log
1, 4, 10.) -/
def Obligations.UnlistedWordReportsErrOp : Prop :=
  (∀ w : Word, (∀ i, (w, i) ∉ commandTable) ↔
    w.extractLsb' 8 24 ≠ 0#24 ∨ ∀ i, w.extractLsb' 0 8 ≠ encodeOpcode i) ∧
  (∀ (s : State) (w : Word) (rest : List Event), s.inbox = .write 32 0x0C w :: rest →
    (∀ i, (w, i) ∉ commandTable) →
    step s = .next { s with inbox := rest, status := .errOp, reply := some (.write .okay), draws := s.draws + 1 }) ∧
  ∀ (s : State) (i : Instr), exec i { s with status := .errOp } = exec i s

/-- Nothing stops the block (47_system.md R153): every step answers a next state. -/
def Obligations.EveryStepAnswersNext : Prop := ∀ s : State, ∃ t, step s = .next t

/-- Events are served one at a time in the order offered (20_memory.md R52), the parameters never change (10_state.md R30),
and an idle block keeps all its state (60_exceptions.md R172). The inbox and the event count are the model's own choice
(log 1, 4). -/
def Obligations.StepServesOneEventInOrder : Prop :=
  ∀ s t : State, step s = .next t →
    t.cfg = s.cfg ∧ t.inbox = s.inbox.tail ∧ (s.inbox = [] → t = s) ∧ (s.inbox ≠ [] → t.draws = s.draws + 1)

/-! ### Encoding -/

/-- The decoder answers a command exactly for the fifteen words of 30_encoding.md R61, the encoder writes them, and decoding an
encoded command gives it back. -/
def Obligations.DecodesExactlyTheListedWords : Prop :=
  (∀ (w : Word) (i : Instr), decode w = .ok i ↔ (w, i) ∈ commandTable) ∧
  ∀ i : Instr, i.wf = true → (encode i, i) ∈ commandTable ∧ wordWf (encode i) = true ∧ decode (encode i) = .ok i ∧
    decodeTableWord 32 (encode i).toNat = some i

/-- A few command words written out from the table of 30_encoding.md R61 decode to their commands. -/
def Obligations.WrittenWordsDecode : Prop :=
  decode 0x00000001#32 = .ok .srst ∧ decode 0x00000012#32 = .ok .crcPut ∧ decode 0x00000021#32 = .ok .icsUpd ∧
  decode 0x00000031#32 = .ok .rc4Xor ∧ decode 0x00000042#32 = .ok .wpaDec ∧
  decode 0x00000143#32 = .error (.zeroField 1#24) ∧ decode 0x00000002#32 = .error (.unusedOpcode 2#8)

/-! ### The bus -/

/-- Exactly which accesses answer `ERR` (20_memory.md R40 with the map of 10_state.md R11): those that reach no mapped word.
Such a transaction changes no register and no byte, and a read answers data 0. Every other read answers `OKAY` with the
value of its register, and every other write answers `OKAY`. (`inbox`, `draws` and `reply` are the model's own fields: log
1, 4, 10.) -/
def Obligations.UnmappedAccessesAnswerErr : Prop :=
  ∀ (s : State) (bits off : Nat), s.cfg.wf = true →
    (accessReg s bits off = none ↔
      bits ≠ 32 ∨ off % 4 ≠ 0 ∨ off = 0x3C ∨ off = 0x4C ∨ (0x70 ≤ off ∧ off ≤ 0xFC) ∨ (0x240 ≤ off ∧ off ≤ 0xFFFC) ∨
        0x10000 + s.cfg.memSize ≤ off) ∧
    (accessReg s bits off = none → ∀ (rest : List Event) (v : Word),
      (s.inbox = .read bits off :: rest →
        step s = .next { s with inbox := rest, reply := some (.read .err 0#32), draws := s.draws + 1 }) ∧
      (s.inbox = .write bits off v :: rest →
        step s = .next { s with inbox := rest, reply := some (.write .err), draws := s.draws + 1 })) ∧
    (∀ r, accessReg s bits off = some r → ∀ (rest : List Event) (v : Word),
      (s.inbox = .read bits off :: rest →
        step s = .next { s with inbox := rest, reply := some (.read .okay (readReg s r)), draws := s.draws + 1 }) ∧
      (s.inbox = .write bits off v :: rest → ∃ t, step s = .next t ∧ t.reply = some (.write .okay)))

/-- The register map is one to one (10_state.md R11): a 4-aligned offset reaches a register exactly when it is that register's
offset, and the `MEM` window ends with the buffer. -/
def Obligations.RegisterMapIsOneToOne : Prop :=
  ∀ (memSize off : Nat) (r : Reg), off % 4 = 0 →
    (regAt memSize off = some r ↔ off = regOffset r ∧ ∀ w, r = .mem w → 4 * w + 4 ≤ memSize)

/-- 20_memory.md R42: the windows `KEY`, `PTK` and `MEM` are little-endian by lane, for reads and for writes; a write
stores all four bytes of its word and no other byte. (`inbox`, `draws` and `reply` are the model's own fields: log 1, 4,
10.) -/
def Obligations.WindowsAreLittleEndianByLane : Prop :=
  ∀ (s : State) (rest : List Event) (v : Word),
    (∀ w : Nat, w < 64 →
      (s.inbox = .read 32 (0x100 + 4 * w) :: rest → ∃ t, step s = .next t ∧
        t.reply = some (.read .okay (le32Or (s.key.toList.getD (4 * w) 0#8) (s.key.toList.getD (4 * w + 1) 0#8)
          (s.key.toList.getD (4 * w + 2) 0#8) (s.key.toList.getD (4 * w + 3) 0#8)))) ∧
      (s.inbox = .write 32 (0x100 + 4 * w) v :: rest → ∃ t, step s = .next t ∧
        t = { s with inbox := rest, key := t.key, reply := some (.write .okay), draws := s.draws + 1 } ∧
        (∀ k, k < 4 → t.key.toList.getD (4 * w + k) 0#8 = v.extractLsb' (8 * k) 8) ∧
        ∀ x, x < 4 * w ∨ 4 * w + 4 ≤ x → t.key.toList.getD x 0#8 = s.key.toList.getD x 0#8)) ∧
    (∀ w : Nat, w < 16 →
      (s.inbox = .read 32 (0x200 + 4 * w) :: rest → ∃ t, step s = .next t ∧
        t.reply = some (.read .okay (le32Or (s.ptk.toList.getD (4 * w) 0#8) (s.ptk.toList.getD (4 * w + 1) 0#8)
          (s.ptk.toList.getD (4 * w + 2) 0#8) (s.ptk.toList.getD (4 * w + 3) 0#8)))) ∧
      (s.inbox = .write 32 (0x200 + 4 * w) v :: rest → ∃ t, step s = .next t ∧
        t = { s with inbox := rest, ptk := t.ptk, reply := some (.write .okay), draws := s.draws + 1 } ∧
        (∀ k, k < 4 → t.ptk.toList.getD (4 * w + k) 0#8 = v.extractLsb' (8 * k) 8) ∧
        ∀ x, x < 4 * w ∨ 4 * w + 4 ≤ x → t.ptk.toList.getD x 0#8 = s.ptk.toList.getD x 0#8)) ∧
    (∀ w : Nat, 4 * w + 4 ≤ s.cfg.memSize →
      (s.inbox = .read 32 (0x10000 + 4 * w) :: rest → ∃ t, step s = .next t ∧
        t.reply = some (.read .okay (le32Or (s.byteAt (4 * w)) (s.byteAt (4 * w + 1)) (s.byteAt (4 * w + 2))
          (s.byteAt (4 * w + 3))))) ∧
      (s.inbox = .write 32 (0x10000 + 4 * w) v :: rest → ∃ t, step s = .next t ∧
        t = { s with inbox := rest, mem := t.mem, reply := some (.write .okay), draws := s.draws + 1 } ∧
        (∀ k, k < 4 → t.mem.lookup (4 * w + k) = some (v.extractLsb' (8 * k) 8)) ∧
        ∀ x, x < 4 * w ∨ 4 * w + 4 ≤ x → t.mem.lookup x = s.mem.lookup x))

/-- 10_state.md R28, with the "bits used" of R11: reserved bits read 0 and ignore writes, a writable field stores exactly
the bits written, a read-only register ignores the write, and no other register changes but one computed from the
register written; the RC4 engine, which is not mapped (R20), and the parameters (R30) never change. The first clause says
that a bus write to a mapped word other than `CMD` is such a write. (`inbox`, `draws` and `reply` are the model's own
fields: log 1, 4, 10.) -/
def Obligations.RegisterWritesStoreUsedBits : Prop :=
  (∀ (s : State) (off : Nat) (r : Reg) (v : Word) (rest : List Event), accessReg s 32 off = some r → r ≠ .cmd →
    s.inbox = .write 32 off v :: rest →
    step s = .next { writeReg { s with inbox := rest } r v with reply := some (.write .okay), draws := s.draws + 1 }) ∧
  ∀ (s : State) (r : Reg) (v : Word),
    readReg (writeReg s r v) r = (if ignoresWrites r then readReg s r else v &&& usedBits r) ∧
    readReg s r &&& ~~~usedBits r = 0#32 ∧ (writeReg s r v).rc4 = s.rc4 ∧ (writeReg s r v).cfg = s.cfg ∧
    ∀ r' : Reg, r' ≠ r → derivedFrom r' ≠ some r → readReg (writeReg s r v) r' = readReg s r'

/-- A bus read changes no register and no byte of `KEY`, `PTK` or `MEM` (20_memory.md R46), `CMD` included. (`inbox`,
`draws` and `reply` are the model's own fields: log 1, 4, 10.) -/
def Obligations.ReadsHaveNoSideEffect : Prop :=
  ∀ (s t : State) (bits off : Nat) (rest : List Event), s.inbox = .read bits off :: rest → step s = .next t →
    t = { s with inbox := rest, reply := t.reply, draws := s.draws + 1 }

/-! ### System commands and accumulator starts -/

/-- 40_crc32.md R72 and 41_inet_checksum.md R82: `CRC_INIT` and `ICS_INIT`, and with them `NOP` (47_system.md section 1),
complete in every state with these effects and no other; their words; what the registers then show. -/
def Obligations.NopAndInitCommandsComplete : Prop :=
  decode 0x00000000#32 = .ok .nop ∧ decode 0x00000010#32 = .ok .crcInit ∧ decode 0x00000020#32 = .ok .icsInit ∧
  ∀ s : State,
    exec .nop s = .next { s with status := .ok } ∧
    exec .crcInit s = .next { s with crcAcc := 0xFFFFFFFF#32, status := .ok } ∧
    exec .icsInit s = .next { s with icsSum := 0#16, icsPhase := false, status := .ok } ∧
    (∀ t, exec .crcInit s = .next t → readReg t .crcVal = 0#32) ∧
    ∀ t, exec .icsInit s = .next t → readReg t .icsAcc = 0#32 ∧ readReg t .icsVal = 0x0000FFFF#32

/-! ### The CRC-32 generator -/

/-- 40_crc32.md R73: `CRC_UPD` accumulates the bytes of the source range in order and changes nothing else; out of range it
changes the code alone; consecutive ranges chain; its word and its example. Each byte goes into the low end of the remainder
and is followed by the eight shifts of R70. -/
def Obligations.CrcUpdAccumulatesTheSourceRange : Prop :=
  decode 0x00000011#32 = .ok .crcUpd ∧
  (∀ (acc : Word) (x y : List Byte), crcUpd acc [] = acc ∧ crcUpd acc (x ++ y) = crcUpd (crcUpd acc x) y) ∧
  (∀ (acc : Word) (b : Byte), crcUpd acc [b] =
    (List.range 8).foldl (fun (a : Word) (_ : Nat) => if a.getLsbD 0 = true then (a >>> 1) ^^^ 0xEDB88320#32 else a >>> 1)
      (acc ^^^ b.setWidth 32)) ∧
  crcUpd 0xFFFFFFFF#32 [0x31#8, 0x32#8, 0x33#8, 0x34#8, 0x35#8, 0x36#8, 0x37#8, 0x38#8, 0x39#8] = 0x340BC6D9#32 ∧
  (∀ s : State, readReg s .crcVal = s.crcAcc ^^^ 0xFFFFFFFF#32) ∧
  ∀ s : State,
    (s.src.toNat + s.len.toNat ≤ s.cfg.memSize →
      exec .crcUpd s
        = .next { s with crcAcc := crcUpd s.crcAcc (s.bytes s.src.toNat s.len.toNat), status := .ok }) ∧
    (s.cfg.memSize < s.src.toNat + s.len.toNat → exec .crcUpd s = .next { s with status := .errRange })

/-- Consecutive `CRC_UPD` commands over two adjacent ranges give the CRC of the whole (40_crc32.md R73). -/
def Obligations.CrcUpdInPiecesIsCrcUpdOfTheWhole : Prop :=
  ∀ (s : State) (n m : Nat), s.cfg.wf = true → s.src.toNat + (n + m) ≤ s.cfg.memSize →
    sourceWritten { s with len := BitVec.ofNat 32 (n + m) } →
    ∃ s1 s2 t, exec .crcUpd { s with len := BitVec.ofNat 32 n } = .next s1 ∧
      exec .crcUpd { s1 with src := s.src + BitVec.ofNat 32 n, len := BitVec.ofNat 32 m } = .next s2 ∧
      exec .crcUpd { s with len := BitVec.ofNat 32 (n + m) } = .next t ∧
      s2.crcAcc = t.crcAcc ∧ s2.status = .ok ∧ t.status = .ok

/-- 40_crc32.md R74: `CRC_PUT` stores the complemented remainder at `DST`, least significant byte first, and changes no other
byte and no other register; out of range it changes the code alone; accumulating the stored bytes gives the residue; its word
and its example. -/
def Obligations.CrcPutStoresTheTrailer : Prop :=
  decode 0x00000012#32 = .ok .crcPut ∧
  (∀ acc : Word, crcUpd acc (le32Bytes (acc ^^^ 0xFFFFFFFF#32)) = 0xDEBB20E3#32) ∧
  le32Bytes (0x340BC6D9#32 ^^^ 0xFFFFFFFF#32) = [0x26#8, 0x39#8, 0xF4#8, 0xCB#8] ∧
  ∀ s : State,
    (s.dst.toNat + 4 ≤ s.cfg.memSize →
      ∃ t, exec .crcPut s = .next t ∧ t = { s with mem := t.mem, status := .ok } ∧
        (∀ k, k < 4 → t.byteAt (s.dst.toNat + k) = (s.crcAcc ^^^ 0xFFFFFFFF#32).extractLsb' (8 * k) 8) ∧
        sameOutside s t s.dst.toNat 4) ∧
    (s.cfg.memSize < s.dst.toNat + 4 → exec .crcPut s = .next { s with status := .errRange })

/-- 40_crc32.md R71: the value of a byte sequence, its trailer form, the three facts, and the residue: a sequence followed by
its own trailer always accumulates to `0xDEBB20E3`. -/
def Obligations.CrcResidueIsConstant : Prop :=
  (∀ x : List Byte, crc32 x = crcUpd 0xFFFFFFFF#32 x ^^^ 0xFFFFFFFF#32) ∧
  crc32 [] = 0x00000000#32 ∧
  crc32 [0x31#8, 0x32#8, 0x33#8, 0x34#8, 0x35#8, 0x36#8, 0x37#8, 0x38#8, 0x39#8] = 0xCBF43926#32 ∧
  ∀ x : List Byte,
    le32Bytes (crc32 x) = [(crc32 x).extractLsb' 0 8, (crc32 x).extractLsb' 8 8, (crc32 x).extractLsb' 16 8,
      (crc32 x).extractLsb' 24 8] ∧
    crcUpd 0xFFFFFFFF#32 (x ++ le32Bytes (crc32 x)) = 0xDEBB20E3#32 ∧
    crc32 (x ++ le32Bytes (crc32 x)) = 0x2144DF1C#32

/-- For a fixed byte sequence the update is affine over GF(2) in the remainder (40_crc32.md section 3). -/
def Obligations.CrcUpdateIsAffine : Prop :=
  ∀ (a b : Word) (x : List Byte), crcUpd (a ^^^ b) x ^^^ crcUpd 0#32 x = crcUpd a x ^^^ crcUpd b x

/-- The trailer that `CRC_PUT` stores just after a written range verifies: accumulating the range and its trailer leaves the
residue (40_crc32.md section 2). -/
def Obligations.StoredTrailerVerifies : Prop :=
  ∀ s : State, s.cfg.wf = true → sourceWritten s → s.dst.toNat = s.src.toNat + s.len.toNat →
    s.dst.toNat + 4 ≤ s.cfg.memSize →
    ∃ s1 s2 s3 s4 t, exec .crcInit s = .next s1 ∧ exec .crcUpd s1 = .next s2 ∧ exec .crcPut s2 = .next s3 ∧
      exec .crcInit s3 = .next s4 ∧ exec .crcUpd { s4 with len := s.len + 4#32 } = .next t ∧
      t.status = .ok ∧ t.crcAcc = 0xDEBB20E3#32 ∧ readReg t .crcVal = 0x2144DF1C#32

/-! ### The Internet checksum unit -/

/-- 41_inet_checksum.md R83: `ICS_UPD` accumulates the source range from the sum and phase there are; the phase changes
exactly when `LEN` is odd; nothing else changes, and out of range the code alone; its word and its example. -/
def Obligations.IcsUpdAccumulatesTheSourceRange : Prop :=
  decode 0x00000021#32 = .ok .icsUpd ∧
  icsUpd 0#16 false [0x00#8, 0x01#8] = (0x0001#16, false) ∧ icsUpd 0x0001#16 false [0xF2#8, 0x03#8] = (0xF204#16, false) ∧
  icsUpd 0xF204#16 false [0xF4#8, 0xF5#8] = (0xE6FA#16, false) ∧
  icsUpd 0#16 false [0x00#8, 0x01#8, 0xF2#8, 0x03#8, 0xF4#8, 0xF5#8, 0xF6#8, 0xF7#8] = (0xDDF2#16, false) ∧
  ~~~0xDDF2#16 = 0x220D#16 ∧
  ∀ s : State,
    (s.src.toNat + s.len.toNat ≤ s.cfg.memSize →
      exec .icsUpd s
        = .next { s with
            icsSum := (icsUpd s.icsSum s.icsPhase (s.bytes s.src.toNat s.len.toNat)).1
            icsPhase := if s.len.toNat % 2 = 1 then !s.icsPhase else s.icsPhase
            status := .ok }) ∧
    (s.cfg.memSize < s.src.toNat + s.len.toNat → exec .icsUpd s = .next { s with status := .errRange })

/-- 41_inet_checksum.md R84: `ICS_PUT` stores the complemented sum big-endian at `DST` and changes nothing else; out of range
it changes the code alone; its word and its example. -/
def Obligations.IcsPutStoresTheChecksum : Prop :=
  decode 0x00000022#32 = .ok .icsPut ∧
  (icsUpd 0#16 false (exampleHeader [0x00#8, 0x00#8])).1 = 0x479E#16 ∧ ~~~0x479E#16 = 0xB861#16 ∧
  (icsUpd 0#16 false (exampleHeader [0xB8#8, 0x61#8])).1 = 0xFFFF#16 ∧
  ∀ s : State,
    (s.dst.toNat + 2 ≤ s.cfg.memSize →
      ∃ t, exec .icsPut s = .next t ∧ t = { s with mem := t.mem, status := .ok } ∧
        t.byteAt s.dst.toNat = (~~~s.icsSum).extractLsb' 8 8 ∧
        t.byteAt (s.dst.toNat + 1) = (~~~s.icsSum).extractLsb' 0 8 ∧
        sameOutside s t s.dst.toNat 2) ∧
    (s.cfg.memSize < s.dst.toNat + 2 → exec .icsPut s = .next { s with status := .errRange })

/-- 41_inet_checksum.md R85: `oc_add` is unsigned 16-bit one's-complement addition with the carry folded in, commutative and
associative, with 0 as identity, and its corner values. -/
def Obligations.OnesComplementAdditionLaws : Prop :=
  (∀ a w : Half, (ocAdd a w).toNat
    = if a.toNat + w.toNat < 65536 then a.toNat + w.toNat else a.toNat + w.toNat - 65535) ∧
  (∀ a b : Half, ocAdd a b = ocAdd b a) ∧
  (∀ a b c : Half, ocAdd (ocAdd a b) c = ocAdd a (ocAdd b c)) ∧
  (∀ a : Half, ocAdd a 0#16 = a ∧ ocAdd 0#16 a = a) ∧
  (∀ a : Half, a ≠ 0#16 → ocAdd a 0xFFFF#16 = a) ∧ ocAdd 0#16 0xFFFF#16 = 0xFFFF#16 ∧
  ocAdd 0xFFFF#16 0xFFFF#16 = 0xFFFF#16 ∧ ocAdd 0xFFFF#16 0x0001#16 = 0x0001#16 ∧
  ocAdd 0x8000#16 0x8000#16 = 0x0001#16 ∧ ocAdd 0#16 0#16 = 0#16

/-- Byte-wise accumulation is the sum of big-endian words, an odd last byte counts as if a zero byte followed it, and pieces
of any lengths chain (41_inet_checksum.md section 1). -/
def Obligations.IcsSumsBigEndianWords : Prop :=
  (∀ (sum : Half) (b0 b1 : Byte) (x : List Byte),
    icsUpd sum false (b0 :: b1 :: x) = icsUpd (ocAdd sum (b0 ++ b1)) false x) ∧
  (∀ (sum : Half) (x : List Byte) (b : Byte), x.length % 2 = 0 →
    (icsUpd sum false (x ++ [b])).1 = (icsUpd sum false (x ++ [b, 0#8])).1) ∧
  ∀ (sum : Half) (phase : Bool) (x y : List Byte),
    icsUpd (icsUpd sum phase x).1 (icsUpd sum phase x).2 y = icsUpd sum phase (x ++ y)

/-- A checksum field validates (41_inet_checksum.md section 1): a sequence with its own checksum, big-endian, in the field that
was zero when it was computed, at an even offset, sums to `0xFFFF`. -/
def Obligations.StoredChecksumValidates : Prop :=
  ∀ (x y : List Byte) (c : Half), x.length % 2 = 0 → c = ics (x ++ [0#8, 0#8] ++ y) →
    (icsUpd 0#16 false (x ++ [c.extractLsb' 8 8, c.extractLsb' 0 8] ++ y)).1 = 0xFFFF#16 ∧
    ics (x ++ [c.extractLsb' 8 8, c.extractLsb' 0 8] ++ y) = 0#16

/-- The sum is `0x0000` only if every byte accumulated was zero (41_inet_checksum.md section 1). -/
def Obligations.ZeroSumMeansZeroBytes : Prop :=
  ∀ (phase : Bool) (x : List Byte), (icsUpd 0#16 phase x).1 = 0#16 ↔ ∀ b ∈ x, b = 0#8

/-! ### The RC4 engine -/

/-- `RC4_KSA` (42_rc4.md R91): with a legal `KLEN` the engine holds the schedule of the first `KLEN` key bytes, else the code
alone changes; running it twice is running it once; a schedule leaves a permutation with `i` and `j` at 0 (10_state.md R20);
its word, and its example: `S[0..16)` and the first four `j` for the key "Key". -/
def Obligations.Rc4KsaSchedulesTheKeyBytes : Prop :=
  decode 0x00000030#32 = .ok .rc4Ksa ∧
  (rc4Ksa rc4ExampleKey).s.toList.take 16
    = [0x4B#8, 0x33#8, 0x84#8, 0x9D#8, 0xC0#8, 0xC8#8, 0x1D#8, 0xA8#8,
      0x4A#8, 0xF3#8, 0x83#8, 0xE4#8, 0x12#8, 0x70#8, 0x82#8, 0x90#8] ∧
  scheduleIndex rc4ExampleKey 1 = 75#8 ∧ scheduleIndex rc4ExampleKey 2 = 177#8 ∧
  scheduleIndex rc4ExampleKey 3 = 44#8 ∧ scheduleIndex rc4ExampleKey 4 = 122#8 ∧
  (∀ s t u : State, exec .rc4Ksa s = .next t → exec .rc4Ksa t = .next u → u = t) ∧
  (∀ s : State,
    (1 ≤ s.klen.toNat → s.klen.toNat ≤ 256 →
      exec .rc4Ksa s = .next { s with rc4 := rc4Ksa s.password, status := .ok }) ∧
    (s.klen.toNat = 0 ∨ 256 < s.klen.toNat → exec .rc4Ksa s = .next { s with status := .errKlen })) ∧
  ∀ key : List Byte, (rc4Ksa key).s.toList.Perm Rc4.identity.toList ∧ (rc4Ksa key).i = 0#8 ∧ (rc4Ksa key).j = 0#8

/-- `RC4_XOR` (42_rc4.md R92): destination byte `k` is the pre-command source byte `k` xor keystream byte `k`, whatever the
overlap of the two ranges (20_memory.md R47); the engine advances by `LEN` bytes; nothing else changes. Out of range, and with
`LEN = 0` in range, it changes the code alone. Its word, and its example: keystream, output, `i` and `j` for the key "Key" and
the message "Plaintext"; the keystream of the engine that no key schedule has set. -/
def Obligations.Rc4XorMapsTheSourceRange : Prop :=
  decode 0x00000031#32 = .ok .rc4Xor ∧
  (List.range 9).map (rc4StreamByte (rc4Ksa rc4ExampleKey))
    = [0xEB#8, 0x9F#8, 0x77#8, 0x81#8, 0xB7#8, 0x34#8, 0xCA#8, 0x72#8, 0xA7#8] ∧
  (rc4Xor (rc4Ksa rc4ExampleKey) rc4ExampleText).1
    = [0xBB#8, 0xF3#8, 0x16#8, 0xE8#8, 0xD9#8, 0x40#8, 0xAF#8, 0x0A#8, 0xD3#8] ∧
  (rc4Xor (rc4Ksa rc4ExampleKey) rc4ExampleText).2.i = 9#8 ∧ (rc4Xor (rc4Ksa rc4ExampleKey) rc4ExampleText).2.j = 222#8 ∧
  (List.range 8).map (rc4StreamByte State.reset.rc4)
    = [0x02#8, 0x05#8, 0x07#8, 0x0D#8, 0x0D#8, 0x17#8, 0x1F#8, 0x28#8] ∧
  ∀ s : State,
    (s.len = 0#32 → s.src.toNat ≤ s.cfg.memSize → s.dst.toNat ≤ s.cfg.memSize →
      exec .rc4Xor s = .next { s with status := .ok }) ∧
    (s.src.toNat + s.len.toNat ≤ s.cfg.memSize → s.dst.toNat + s.len.toNat ≤ s.cfg.memSize →
      ∃ t, exec .rc4Xor s = .next t ∧
        t = { s with mem := t.mem, rc4 := rc4Advance s.len.toNat s.rc4, status := .ok } ∧
        (∀ k, k < s.len.toNat →
          t.byteAt (s.dst.toNat + k) = s.byteAt (s.src.toNat + k) ^^^ rc4StreamByte s.rc4 k) ∧
        sameOutside s t s.dst.toNat s.len.toNat) ∧
    (s.cfg.memSize < s.src.toNat + s.len.toNat ∨ s.cfg.memSize < s.dst.toNat + s.len.toNat →
      exec .rc4Xor s = .next { s with status := .errRange })

/-- A message processed in two pieces gives the same bytes and the same engine as in one (42_rc4.md R92), when the first
piece's output does not fall on the second piece's input. -/
def Obligations.Rc4XorInPiecesIsRc4XorOfTheWhole : Prop :=
  ∀ (s : State) (n m : Nat), s.cfg.wf = true → s.src.toNat + (n + m) ≤ s.cfg.memSize →
    s.dst.toNat + (n + m) ≤ s.cfg.memSize → s.dst.toNat ≤ s.src.toNat ∨ s.src.toNat + (n + m) ≤ s.dst.toNat →
    sourceWritten { s with len := BitVec.ofNat 32 (n + m) } →
    ∃ s1 s2 t, exec .rc4Xor { s with len := BitVec.ofNat 32 n } = .next s1 ∧
      exec .rc4Xor { s1 with
        src := s.src + BitVec.ofNat 32 n, dst := s.dst + BitVec.ofNat 32 n, len := BitVec.ofNat 32 m } = .next s2 ∧
      exec .rc4Xor { s with len := BitVec.ofNat 32 (n + m) } = .next t ∧
      s2.rc4 = t.rc4 ∧ s2.status = .ok ∧ t.status = .ok ∧ ∀ a, s2.byteAt a = t.byteAt a

/-- Encryption and decryption are the same operation (42_rc4.md section 1): key schedule and exclusive-or in place, twice,
give back every byte. -/
def Obligations.Rc4TwiceInPlaceRestoresMemory : Prop :=
  ∀ s : State, 1 ≤ s.klen.toNat → s.klen.toNat ≤ 256 → s.dst = s.src →
    s.src.toNat + s.len.toNat ≤ s.cfg.memSize → sourceWritten s →
    ∃ s1 s2 s3 t, exec .rc4Ksa s = .next s1 ∧ exec .rc4Xor s1 = .next s2 ∧ exec .rc4Ksa s2 = .next s3 ∧
      exec .rc4Xor s3 = .next t ∧ t.rc4 = s2.rc4 ∧ ∀ a, t.byteAt a = s.byteAt a

/-! ### BSSID selection, and the paths that open with RC4 and CRC-32 -/

/-- 43_wep.md R100: `BSEL` selects by the two DS bits, whatever the other bits of `FC`; nothing but `BSSID` and `STATUS`
changes; no pipeline command reads `BSSID`; its word and its example. That both bits set selects `A3` is what the rule says;
whether it is the right BSSID is not claimed (log 12). -/
def Obligations.BselSelectsByTheDsBits : Prop :=
  decode 0x00000040#32 = .ok .bsel ∧
  (∀ s : State, s.fc = 0x4108#16 → s.a1 = #v[0x00#8, 0x11#8, 0x22#8, 0x33#8, 0x44#8, 0x55#8] →
    ∃ t, exec .bsel s = .next t ∧ readReg t .bssidLo = 0x33221100#32 ∧ readReg t .bssidHi = 0x00005544#32) ∧
  (∀ (i : Instr) (s t : State) (b : Addr), i.isPipeline = true → exec i s = .next t →
    exec i { s with bssid := b } = .next { t with bssid := b }) ∧
  ∀ s : State,
    (s.fc.getLsbD 8 = false → s.fc.getLsbD 9 = false →
      exec .bsel s = .next { s with bssid := s.a3, status := .ok }) ∧
    (s.fc.getLsbD 8 = true → s.fc.getLsbD 9 = false →
      exec .bsel s = .next { s with bssid := s.a1, status := .ok }) ∧
    (s.fc.getLsbD 8 = false → s.fc.getLsbD 9 = true →
      exec .bsel s = .next { s with bssid := s.a2, status := .ok }) ∧
    (s.fc.getLsbD 8 = true → s.fc.getLsbD 9 = true →
      exec .bsel s = .next { s with bssid := s.a3, status := .ok })

/-- 43_wep.md R102: the open step of `WEP_DEC`, `TKIP_DEC` and `WPA_DEC` on the TKIP path, once its checks pass. The candidate
plaintext is delivered exactly when the decrypted check value is its CRC-32; the engine and `CRC_ACC` are replaced in both
outcomes; nothing else changes. -/
def Obligations.OpenStepDeliversOnMatchAlone : Prop :=
  ∀ (i : Instr) (s : State) (h : Nat) (key : List Byte), opensWith i s h key → openChecksPass i s h →
    (openIcv s h key = le32Bytes (crc32 (openPlain s h key)) →
      ∃ t, exec i s = .next t ∧
        t = { s with
          mem := t.mem, status := .ok, olen := BitVec.ofNat 32 (s.len.toNat - h - 4), fc := s.fc &&& 0xBFFF#16
          rc4 := rc4Advance (s.len.toNat - h) (rc4Ksa key)
          crcAcc := crcUpd 0xFFFFFFFF#32 (openPlain s h key) } ∧
        t.bytes s.dst.toNat (s.len.toNat - h - 4) = openPlain s h key ∧
        sameOutside s t s.dst.toNat (s.len.toNat - h - 4)) ∧
    (openIcv s h key ≠ le32Bytes (crc32 (openPlain s h key)) →
      exec i s = .next { s with
        status := .fail, olen := 0#32
        rc4 := rc4Advance (s.len.toNat - h) (rc4Ksa key)
        crcAcc := crcUpd 0xFFFFFFFF#32 (openPlain s h key) })

/-- WEP and TKIP decryption recover what was encrypted (43_wep.md, determinism; 46_tkip.md "exactly as in plain WEP"): a body
whose encrypted part is any plaintext and its CRC-32 trailer under RC4 with the frame's key decrypts to that plaintext. -/
def Obligations.RecoversRc4EncryptedPlaintext : Prop :=
  ∀ (i : Instr) (s : State) (h : Nat) (key plain : List Byte), opensWith i s h key → openChecksPass i s h →
    s.len.toNat = h + plain.length + 4 →
    s.bytes (s.src.toNat + h) (plain.length + 4) = (rc4Xor (rc4Ksa key) (plain ++ le32Bytes (crc32 plain))).1 →
    ∃ t, exec i s = .next t ∧ t.status = .ok ∧ t.olen.toNat = plain.length ∧
      t.bytes s.dst.toNat plain.length = plain ∧ sameOutside s t s.dst.toNat plain.length ∧
      t.crcAcc ^^^ 0xFFFFFFFF#32 = crc32 plain ∧ t.fc = s.fc &&& 0xBFFF#16

/-- Corrupting any one byte of the encrypted part of a WEP or TKIP body that decrypts makes the check fail (43_wep.md,
determinism), and the frame, `FC` and every byte of `MEM` are left as they were. -/
def Obligations.CorruptedCiphertextByteIsRejected : Prop :=
  ∀ (i : Instr) (s t : State) (h : Nat) (key : List Byte) (k : Nat) (b : Byte), opensWith i s h key → sourceWritten s →
    exec i s = .next t → t.status = .ok →
    h ≤ k → k < s.len.toNat → b ≠ s.byteAt (s.src.toNat + k) →
    ∃ u, exec i (s.memWrite (s.src.toNat + k) [b]) = .next u ∧ u.status = .fail ∧ u.olen = 0#32 ∧ u.fc = s.fc ∧
      u.byteAt (s.src.toNat + k) = b ∧ ∀ a, a ≠ s.src.toNat + k → u.byteAt a = s.byteAt a

/-! ### The CCMP path and the checks of all pipeline commands -/

/-- The checks of the pipeline commands come in the order of 60_exceptions.md section 2, and a command that fails one changes
`STATUS` and `OLEN` alone. -/
def Obligations.PipelineChecksInOrder : Prop :=
  (∀ (s : State) (h : Nat), h = s.cfg.wepHdrLen.toNat →
    (s.len.toNat < h + 4 → exec .wepDec s = .next { s with status := .errLen, olen := 0#32 }) ∧
    (h + 4 ≤ s.len.toNat → 253 < s.klen.toNat → exec .wepDec s = .next { s with status := .errKlen, olen := 0#32 }) ∧
    (h + 4 ≤ s.len.toNat → s.klen.toNat ≤ 253 →
      s.cfg.memSize < s.src.toNat + s.len.toNat ∨ s.cfg.memSize < s.dst.toNat + (s.len.toNat - h - 4) →
      exec .wepDec s = .next { s with status := .errRange, olen := 0#32 })) ∧
  (∀ (i : Instr) (s : State), i = .tkipDec ∨ (i = .wpaDec ∧ s.cipher = .tkip) →
    (s.len.toNat < 12 → exec i s = .next { s with status := .errLen, olen := 0#32 }) ∧
    (12 ≤ s.len.toNat →
      s.cfg.memSize < s.src.toNat + s.len.toNat ∨ s.cfg.memSize < s.dst.toNat + (s.len.toNat - 12) →
      exec i s = .next { s with status := .errRange, olen := 0#32 })) ∧
  (∀ (i : Instr) (s : State), takesCcmpPath i s →
    (s.len.toNat < 16 ∨ 65535 < s.len.toNat - 16 → exec i s = .next { s with status := .errLen, olen := 0#32 }) ∧
    (16 ≤ s.len.toNat → s.len.toNat - 16 ≤ 65535 →
      s.cfg.memSize < s.src.toNat + s.len.toNat ∨ s.cfg.memSize < s.dst.toNat + (s.len.toNat - 16) →
      exec i s = .next { s with status := .errRange, olen := 0#32 }))

/-- `WPA_DEC` is `CCMP_DEC` when `CTRL.CIPHER` is 1 and `TKIP_DEC` when it is 0, in every effect (44_wpa_ccmp.md R110). -/
def Obligations.WpaDecIsTheSelectedPath : Prop :=
  ∀ s : State, (s.cipher = .ccmp → exec .wpaDec s = exec .ccmpDec s) ∧
    (s.cipher = .tkip → exec .wpaDec s = exec .tkipDec s)

/-- The CCMP path (44_wpa_ccmp.md R117), once its checks pass: the decrypted data are delivered exactly when the computed MIC is
the received one; the RC4 engine and both accumulators are never touched. -/
def Obligations.CcmpDeliversOnMicMatchAlone : Prop :=
  ∀ (i : Instr) (s : State), takesCcmpPath i s → ccmpChecksPass s →
    (ccmpComputed s = ccmpReceived s →
      ∃ t, exec i s = .next t ∧
        t = { s with
          mem := t.mem, status := .ok, olen := BitVec.ofNat 32 (s.len.toNat - 16), fc := s.fc &&& 0xBFFF#16 } ∧
        t.bytes s.dst.toNat (s.len.toNat - 16) = ccmpPlain s ∧
        sameOutside s t s.dst.toNat (s.len.toNat - 16)) ∧
    (ccmpComputed s ≠ ccmpReceived s → exec i s = .next { s with status := .fail, olen := 0#32 })

/-- CCMP decryption recovers what was encrypted (44_wpa_ccmp.md sections 2 to 4): a body whose data are any plaintext under the
counter-mode keystream and whose last 8 bytes are its MIC under counter 0 decrypts to that plaintext. -/
def Obligations.RecoversCcmpEncryptedPlaintext : Prop :=
  ∀ (i : Instr) (s : State) (plain : List Byte), takesCcmpPath i s → ccmpChecksPass s →
    s.len.toNat = 16 + plain.length →
    s.bytes (s.src.toNat + 8) plain.length
      = xorBytes plain (ccmKeystream s.ccmpTk (ccmpNonce s) plain.length) →
    s.bytes (s.src.toNat + 8 + plain.length) 8
      = xorBytes (ccmMac s.ccmpTk (ccmpNonce s) (ccmpAad s) plain)
          ((ccmKeyBlock s.ccmpTk (ccmpNonce s) 0).toList.take 8) →
    ∃ t, exec i s = .next t ∧ t.status = .ok ∧ t.olen.toNat = plain.length ∧
      t.bytes s.dst.toNat plain.length = plain ∧ sameOutside s t s.dst.toNat plain.length ∧
      t = { s with mem := t.mem, status := .ok, olen := t.olen, fc := s.fc &&& 0xBFFF#16 }

/-- 44_wpa_ccmp.md R113 and R114: the AAD and the nonce, byte by byte in their order. The AAD is the masked `FC`, `A1`, `A2`,
`A3`, the masked `SC`, then `A4` when both DS bits are set, then the masked `QC` of a QoS data frame (R112); it is 22, 24, 28
or 30 bytes long, does not depend on bit 14 of `FC`, and with its length in front is always two blocks (R116). The nonce is the
priority, `A2`, and the packet number with `PN5` first (R111). -/
def Obligations.CcmpAadAndNonceShape : Prop :=
  ∀ s : State,
    (ccmpAad s
      = [((s.fc &&& 0xC78F#16) ||| 0x4000#16).extractLsb' 0 8, ((s.fc &&& 0xC78F#16) ||| 0x4000#16).extractLsb' 8 8]
        ++ s.a1.toList ++ s.a2.toList ++ s.a3.toList
        ++ [(s.sc &&& 0x000F#16).extractLsb' 0 8, (s.sc &&& 0x000F#16).extractLsb' 8 8]
        ++ (if s.fc.getLsbD 8 = true ∧ s.fc.getLsbD 9 = true then s.a4.toList else [])
        ++ (if s.fc.getLsbD 3 = true ∧ s.fc.getLsbD 2 = false ∧ s.fc.getLsbD 7 = true then
              [(s.qc &&& 0x000F#16).extractLsb' 0 8, (s.qc &&& 0x000F#16).extractLsb' 8 8]
            else [])) ∧
    (ccmpAad s).length
      = 22 + (if s.fc.getLsbD 8 = true ∧ s.fc.getLsbD 9 = true then 6 else 0)
        + (if s.fc.getLsbD 3 = true ∧ s.fc.getLsbD 2 = false ∧ s.fc.getLsbD 7 = true then 2 else 0) ∧
    ccmpAad { s with fc := s.fc ^^^ 0x4000#16 } = ccmpAad s ∧
    (toBlocks (be16Bytes (BitVec.ofNat 16 (ccmpAad s).length) ++ ccmpAad s)).length = 2 ∧
    (ccmpNonce s
      = [if s.fc.getLsbD 3 = true ∧ s.fc.getLsbD 2 = false ∧ s.fc.getLsbD 7 = true then
            (s.qc &&& 0x000F#16).extractLsb' 0 8
          else 0x00#8]
        ++ s.a2.toList
        ++ [s.byteAt (s.src.toNat + 7), s.byteAt (s.src.toNat + 6), s.byteAt (s.src.toNat + 5), s.byteAt (s.src.toNat + 4),
          s.byteAt (s.src.toNat + 1), s.byteAt (s.src.toNat + 0)]) ∧
    (ccmpNonce s).length = 13

/-! ### What reports, what changes and what matters -/

/-- 60_exceptions.md R161: which command can report which code; every mark of the table occurs in some well-kept state, and no
blank ever does. -/
def Obligations.StatusCodesAreThoseOfTheTable : Prop :=
  ∀ (i : Instr) (c : Code), mayReport i c = true ↔ ∃ s t : State, s.Inv ∧ exec i s = .next t ∧ t.status = c

/-- 60_exceptions.md R163: what a command that does not end in `OK` changes, row by row; in no case is `MEM` written. -/
def Obligations.NonOkEndsChangeOnlyWhatIsListed : Prop :=
  (∀ (s : State) (w : Word), (∀ i, decode w ≠ .ok i) → issue w s = .next { s with status := .errOp }) ∧
  ∀ (i : Instr) (s t : State), exec i s = .next t →
    (t.status ≠ .ok → t.mem = s.mem) ∧ t.status ≠ .errOp ∧
    (t.status = .errLen ∨ t.status = .errKlen ∨ t.status = .errRange →
      (i.isPipeline = false → t = { s with status := t.status }) ∧
      (i.isPipeline = true → t = { s with status := t.status, olen := 0#32 })) ∧
    (t.status = .fail →
      (takesCcmpPath i s ∨ ∃ h key, opensWith i s h key) ∧
      (takesCcmpPath i s → t = { s with status := .fail, olen := 0#32 }) ∧
      ∀ h key, opensWith i s h key →
        t = { s with
          status := .fail, olen := 0#32
          rc4 := rc4Advance (s.len.toNat - h) (rc4Ksa key)
          crcAcc := crcUpd 0xFFFFFFFF#32 (openPlain s h key) })

/-- A command never reads `STATUS.CODE`, and every command overwrites it (10_state.md R15). -/
def Obligations.CommandsIgnoreTheOldStatus : Prop :=
  ∀ (i : Instr) (s : State) (c : Code), exec i { s with status := c } = exec i s

/-- The registers no command writes but `SRST` (10_state.md R12, R14, R22 to R25): the operand registers, the cipher
flag, `SC`, `QC`, the addresses and the keys. `OLEN` is written by pipeline commands alone, and of `FC` only bit 14, by a
pipeline command that ends in `OK`. The parameters and the model's own fields are changed by no command. (Those fields:
log 1, 4, 5, 10.) -/
def Obligations.CommandsKeepTheHostsRegisters : Prop :=
  ∀ (i : Instr) (s t : State), exec i s = .next t →
    t.cfg = s.cfg ∧ t.draws = s.draws ∧ t.inbox = s.inbox ∧ t.reply = s.reply ∧
    (i ≠ .srst →
      t.src = s.src ∧ t.dst = s.dst ∧ t.len = s.len ∧ t.klen = s.klen ∧ t.cipher = s.cipher ∧
      t.sc = s.sc ∧ t.qc = s.qc ∧ t.a1 = s.a1 ∧ t.a2 = s.a2 ∧ t.a3 = s.a3 ∧ t.a4 = s.a4 ∧
      t.ptk = s.ptk ∧ t.key = s.key ∧
      (t.olen ≠ s.olen → i.isPipeline = true) ∧
      (t.fc ≠ s.fc → i.isPipeline = true ∧ t.status = .ok) ∧ (t.fc = s.fc ∨ t.fc = s.fc &&& 0xBFFF#16))

/-- Which commands write the units' state (10_state.md R18 to R21, 70_reset_and_hazards.md R186): `ICS_ACC` is used by no
pipeline command, and the CCMP path touches neither the RC4 engine nor `CRC_ACC`. -/
def Obligations.UnitStateIsWrittenByItsCommandsAlone : Prop :=
  ∀ (i : Instr) (s t : State), exec i s = .next t → i ≠ .srst →
    (t.icsSum ≠ s.icsSum ∨ t.icsPhase ≠ s.icsPhase → i = .icsInit ∨ i = .icsUpd) ∧
    (t.bssid ≠ s.bssid → i = .bsel) ∧
    (t.crcAcc ≠ s.crcAcc →
      i = .crcInit ∨ i = .crcUpd ∨ i = .wepDec ∨ i = .tkipDec ∨ (i = .wpaDec ∧ s.cipher = .tkip)) ∧
    (t.rc4 ≠ s.rc4 →
      i = .rc4Ksa ∨ i = .rc4Xor ∨ i = .wepDec ∨ i = .tkipDec ∨ (i = .wpaDec ∧ s.cipher = .tkip))

/-- A command that changes a byte of `MEM` ends in `OK` and changes only bytes of its own destination range, inside `MEM`
(10_state.md R26, 20_memory.md R46, R48). -/
def Obligations.OnlyDestinationBytesChange : Prop :=
  ∀ (i : Instr) (s t : State) (a : Nat), exec i s = .next t → t.byteAt a ≠ s.byteAt a →
    t.status = .ok ∧ s.dst.toNat ≤ a ∧ a < s.dst.toNat + destLength i s ∧ a < s.cfg.memSize

/-- What `WEP_DEC` delivers depends on its operand registers, the first `KLEN` key bytes and the body alone, and with a 4-byte
header not on the key-ID octet (43_wep.md, corner cases). -/
def Obligations.WepDependsOnItsInputsAlone : Prop :=
  ∀ s u : State, sameOperands s u → u.klen = s.klen → u.password = s.password →
    sameBody s u (if s.cfg.wepHdrLen = .four then [3] else []) →
    ∃ t t', exec .wepDec s = .next t ∧ exec .wepDec u = .next t' ∧ sameDelivery s t t' ∧
      (t.status = .ok ∨ t.status = .fail → t'.rc4 = t.rc4 ∧ t'.crcAcc = t.crcAcc)

/-- What `TKIP_DEC` delivers depends on its operand registers, `A2`, `PTK[32..48)` and the body alone, and not on header octets
1 and 3 (46_tkip.md sections 1 and 3). -/
def Obligations.TkipDependsOnItsInputsAlone : Prop :=
  ∀ s u : State, sameOperands s u → u.a2 = s.a2 →
    (∀ k, 32 ≤ k → k < 48 → u.ptk.toList.getD k 0#8 = s.ptk.toList.getD k 0#8) → sameBody s u [1, 3] →
    ∃ t t', exec .tkipDec s = .next t ∧ exec .tkipDec u = .next t' ∧ sameDelivery s t t' ∧
      (t.status = .ok ∨ t.status = .fail → t'.rc4 = t.rc4 ∧ t'.crcAcc = t.crcAcc)

/-- What `CCMP_DEC` delivers depends on its operand registers, the unmasked bits of `FC`, the fragment number, the TID of a QoS
frame, `A1` to `A3`, `A4` when both DS bits are set, the 16 bytes of `PTK` at `CCMP_TK_OFF`, and the body alone, and not on
header octets 2 and 3 (44_wpa_ccmp.md sections 2 and 4). -/
def Obligations.CcmpDependsOnItsInputsAlone : Prop :=
  ∀ s u : State, sameOperands s u → u.fc &&& 0x878F#16 = s.fc &&& 0x878F#16 → u.sc &&& 0x000F#16 = s.sc &&& 0x000F#16 →
    (s.fc.getLsbD 3 = true → s.fc.getLsbD 2 = false → s.fc.getLsbD 7 = true →
      u.qc &&& 0x000F#16 = s.qc &&& 0x000F#16) →
    u.a1 = s.a1 → u.a2 = s.a2 → u.a3 = s.a3 →
    (s.fc.getLsbD 8 = true → s.fc.getLsbD 9 = true → u.a4 = s.a4) →
    (∀ k, k < 16 → u.ptk.toList.getD (s.cfg.ccmpTkOff.toNat + k) 0#8 = s.ptk.toList.getD (s.cfg.ccmpTkOff.toNat + k) 0#8) →
    sameBody s u [2, 3] →
    ∃ t t', exec .ccmpDec s = .next t ∧ exec .ccmpDec u = .next t' ∧ sameDelivery s t t'

/-! ### AES-128 and the TKIP key -/

/-- 45_aes128.md R132, word by word: `w[t] = w[t-4] ^ u`, with `u = w[t-1]` rotated, substituted and with the round constant
added when `t` is a multiple of 4; the first four words are the key; the words of the example. -/
def Obligations.AesKeyScheduleRecurrence : Prop :=
  (∀ t w, (t, w) ∈ exampleScheduleWords → keyScheduleWord exampleScheduleKey t = w) ∧
  (∀ k, k < 9 → roundConstants.getD (k + 1) 0#8 = xtime (roundConstants.getD k 0#8)) ∧
  ∀ k : Block,
    (keyExpand k).length = 11 ∧
    (∀ t, t < 4 → keyScheduleWord k t = (k.toList.drop (4 * t)).take 4) ∧
    ∀ t, 4 ≤ t → t < 44 →
      (t % 4 ≠ 0 → keyScheduleWord k t = xorBytes (keyScheduleWord k (t - 4)) (keyScheduleWord k (t - 1))) ∧
      (t % 4 = 0 → ∀ u0 u1 u2 u3, keyScheduleWord k (t - 1) = [u0, u1, u2, u3] →
        keyScheduleWord k t
          = xorBytes (keyScheduleWord k (t - 4))
              [sbox u1 ^^^ roundConstants.getD (t / 4 - 1) 0#8, sbox u2, sbox u3, sbox u0])

/-- The field of 45_aes128.md R130: `xtime`; the product is additive in both factors, commutes with `xtime`, and multiplication
by 1, 2 and 3 is as stated; the check values. -/
def Obligations.AesFieldProductLaws : Prop :=
  (∀ a : Byte, xtime a = if a.getLsbD 7 = true then (a <<< 1) ^^^ 0x1B#8 else a <<< 1) ∧
  (∀ a b : Byte, gmul a (xtime b) = xtime (gmul a b)) ∧
  xtime 0x57#8 = 0xAE#8 ∧ xtime 0xAE#8 = 0x47#8 ∧ gmul 0x57#8 0x13#8 = 0xFE#8 ∧ gmul 0x57#8 0x83#8 = 0xC1#8 ∧
  (∀ a b c : Byte, gmul (a ^^^ b) c = gmul a c ^^^ gmul b c) ∧ (∀ a b c : Byte, gmul a (b ^^^ c) = gmul a b ^^^ gmul a c) ∧
  ∀ a : Byte, gmul a 1#8 = a ∧ gmul a 2#8 = xtime a ∧ gmul a 3#8 = xtime a ^^^ a

/-- The S-box table is the affine image of the inverse in the field (45_aes128.md R131). -/
def Obligations.SboxIsTheAffineInverse : Prop :=
  ∀ a : Byte, ∃ x : Byte, (a = 0#8 → x = 0#8) ∧ (a ≠ 0#8 → gmul a x = 1#8) ∧
    sbox a = x ^^^ x.rotateLeft 1 ^^^ x.rotateLeft 2 ^^^ x.rotateLeft 3 ^^^ x.rotateLeft 4 ^^^ 0x63#8

/-- The layout of the per-packet TKIP key (46_tkip.md R144): 16 bytes, the first three from `IV16` alone, the second of them
with bit 5 set and bit 7 clear. -/
def Obligations.TkipKeyLayout : Prop :=
  ∀ (tk : Block) (p : Phase1Key) (iv16 : Half),
    (tkipPhase2 tk p iv16).length = 16 ∧
    (tkipPhase2 tk p iv16).take 3
      = [iv16.extractLsb' 8 8, (iv16.extractLsb' 8 8 ||| 0x20#8) &&& 0x7F#8, iv16.extractLsb' 0 8] ∧
    ((tkipPhase2 tk p iv16).getD 1 0#8).getLsbD 5 = true ∧ ((tkipPhase2 tk p iv16).getD 1 0#8).getLsbD 7 = false

/-! ### The algorithms of the units -/

/-- What each scalar register reads (10_state.md R12 to R23): its own field, `STATUS` the number of its code, `ICS_ACC` the sum
with the phase in bit 16, `BSSID` and the addresses little-endian in two words. A read answers this value on the bus
(`UnmappedAccessesAnswerErr`). -/
def Obligations.ScalarRegistersReadTheirFields : Prop :=
  ∀ s : State,
    readReg s .id = 0x43434231#32 ∧ readReg s .cmd = 0#32 ∧
    (s.cipher = .tkip → readReg s .ctrl = 0#32) ∧ (s.cipher = .ccmp → readReg s .ctrl = 1#32) ∧
    (s.status = .ok → readReg s .status = 0#32) ∧ (s.status = .fail → readReg s .status = 1#32) ∧
    (s.status = .errOp → readReg s .status = 2#32) ∧ (s.status = .errLen → readReg s .status = 3#32) ∧
    (s.status = .errKlen → readReg s .status = 4#32) ∧ (s.status = .errRange → readReg s .status = 5#32) ∧
    readReg s .src = s.src ∧ readReg s .dst = s.dst ∧ readReg s .len = s.len ∧ readReg s .klen = s.klen ∧
    readReg s .olen = s.olen ∧ readReg s .crcAcc = s.crcAcc ∧ readReg s .crcVal = s.crcAcc ^^^ 0xFFFFFFFF#32 ∧
    (readReg s .icsAcc).extractLsb' 0 16 = s.icsSum ∧ (readReg s .icsAcc).getLsbD 16 = s.icsPhase ∧
    (readReg s .icsAcc).extractLsb' 17 15 = 0#15 ∧ readReg s .icsVal = (~~~s.icsSum).setWidth 32 ∧
    readReg s .fc = s.fc.setWidth 32 ∧ readReg s .sc = s.sc.setWidth 32 ∧ readReg s .qc = s.qc.setWidth 32 ∧
    readReg s .bssidLo = le32Or s.bssid[0] s.bssid[1] s.bssid[2] s.bssid[3] ∧
    readReg s .bssidHi = le32Or s.bssid[4] s.bssid[5] 0#8 0#8 ∧
    readReg s (.addrLo .a1) = le32Or s.a1[0] s.a1[1] s.a1[2] s.a1[3] ∧
    readReg s (.addrHi .a1) = le32Or s.a1[4] s.a1[5] 0#8 0#8 ∧
    readReg s (.addrLo .a2) = le32Or s.a2[0] s.a2[1] s.a2[2] s.a2[3] ∧
    readReg s (.addrHi .a2) = le32Or s.a2[4] s.a2[5] 0#8 0#8 ∧
    readReg s (.addrLo .a3) = le32Or s.a3[0] s.a3[1] s.a3[2] s.a3[3] ∧
    readReg s (.addrHi .a3) = le32Or s.a3[4] s.a3[5] 0#8 0#8 ∧
    readReg s (.addrLo .a4) = le32Or s.a4[0] s.a4[1] s.a4[2] s.a4[3] ∧
    readReg s (.addrHi .a4) = le32Or s.a4[4] s.a4[5] 0#8 0#8

/-- 42_rc4.md R90: the key schedule as 256 steps from the identity, each with its `j` and its exchange; one keystream byte, its
output index taken after the exchange; the exclusive-or byte by byte. `S` stays a permutation, two pieces continue one
keystream, and encryption and decryption are the same operation. -/
def Obligations.Rc4ScheduleAndKeystream : Prop :=
  (∀ key : List Byte, 1 ≤ key.length → key.length ≤ 256 →
    ∃ (S : Nat → Vector Byte 256) (j : Nat → Byte),
      (∀ k : Byte, sboxAt (S 0) k = k) ∧ j 0 = 0#8 ∧
      (∀ k, k < 256 →
        (j (k + 1)).toNat
          = ((j k).toNat + (sboxAt (S k) (BitVec.ofNat 8 k)).toNat + (key.getD (k % key.length) 0#8).toNat) % 256 ∧
        exchanged (S k) (S (k + 1)) (BitVec.ofNat 8 k) (j (k + 1))) ∧
      rc4Ksa key = { s := S 256, i := 0#8, j := 0#8 } ∧ (rc4Ksa key).s.toList.Perm Rc4.identity.toList) ∧
  (∀ (r t : Rc4) (z : Byte), rc4Next r = (z, t) →
    t.i.toNat = (r.i.toNat + 1) % 256 ∧ t.j.toNat = (r.j.toNat + (sboxAt r.s t.i).toNat) % 256 ∧
    exchanged r.s t.s t.i t.j ∧
    z = sboxAt t.s (BitVec.ofNat 8 (((sboxAt t.s t.i).toNat + (sboxAt t.s t.j).toNat) % 256)) ∧
    (r.s.toList.Perm Rc4.identity.toList → t.s.toList.Perm Rc4.identity.toList)) ∧
  (∀ (r : Rc4) (x : List Byte),
    (rc4Xor r x).1.length = x.length ∧ (rc4Xor r x).2 = rc4Advance x.length r ∧
    (∀ k, k < x.length → (rc4Xor r x).1.getD k 0#8 = x.getD k 0#8 ^^^ rc4StreamByte r k) ∧
    (rc4Xor r (rc4Xor r x).1).1 = x) ∧
  (∀ (r : Rc4) (x y : List Byte),
    rc4Xor r (x ++ y) = ((rc4Xor r x).1 ++ (rc4Xor (rc4Xor r x).2 y).1, (rc4Xor (rc4Xor r x).2 y).2)) ∧
  ∀ (before after : Vector Byte 256) (a : Byte), exchanged before after a a → after = before

/-- 45_aes128.md R133 and R134: the four steps of the cipher byte by byte, the ten rounds with the round keys of R132, the last
without `MixColumns`, the four examples, and the key bytes the CCMP path gives it. -/
def Obligations.AesCipherIsTenRounds : Prop :=
  (∀ p, p ∈ aesExamples → aesEnc p.1 p.2.1 = p.2.2) ∧
  (∀ (s rk : Block) (k : Nat), k < 16 →
    (xorBlock s rk).toList.getD k 0#8 = s.toList.getD k 0#8 ^^^ rk.toList.getD k 0#8 ∧
    (subBytes s).toList.getD k 0#8 = sbox (s.toList.getD k 0#8)) ∧
  (∀ (s : Block) (r c : Nat), r < 4 → c < 4 →
    (shiftRows s).toList.getD (r + 4 * c) 0#8 = s.toList.getD (r + 4 * ((c + r) % 4)) 0#8) ∧
  (∀ (s : Block) (c : Nat) (a0 a1 a2 a3 : Byte), c < 4 → (s.toList.drop (4 * c)).take 4 = [a0, a1, a2, a3] →
    ((mixColumns s).toList.drop (4 * c)).take 4
      = [gmul a0 2#8 ^^^ gmul a1 3#8 ^^^ a2 ^^^ a3, a0 ^^^ gmul a1 2#8 ^^^ gmul a2 3#8 ^^^ a3,
        a0 ^^^ a1 ^^^ gmul a2 2#8 ^^^ gmul a3 3#8, gmul a0 3#8 ^^^ a1 ^^^ a2 ^^^ gmul a3 2#8]) ∧
  (∀ k b : Block, ∃ w s : Nat → Block,
    (∀ r, r ≤ 10 → (w r).toList = roundKeyBytes k r) ∧
    s 0 = xorBlock b (w 0) ∧
    (∀ r, 1 ≤ r → r ≤ 9 → s r = xorBlock (mixColumns (shiftRows (subBytes (s (r - 1))))) (w r)) ∧
    aesEnc k b = xorBlock (shiftRows (subBytes (s 9))) (w 10)) ∧
  ∀ (s : State) (k : Nat), k < 16 → s.ccmpTk.toList.getD k 0#8 = s.ptk.toList.getD (s.cfg.ccmpTkOff.toNat + k) 0#8

/-- 46_tkip.md R143 and R144: both phases of the key mixing line by line, with the trace of phase 1, the words of phase 2 and
the four vectors; the S-box of R142 with its check values; and which bytes of the frame, of `PTK` and of `A2` a frame's key is mixed
from (R140, R141, R145). -/
def Obligations.TkipMixesTheKeyInTwoPhases : Prop :=
  (∀ v, v ∈ tkipVectors →
    tkipPhase1 v.tk v.ta v.iv32 = v.p1k ∧ tkipPhase2 v.tk v.p1k v.iv16 = v.rc4Key) ∧
  (List.range 8).map phase1After = phase1Trace ∧
  (∀ (tk : Block) (ta : Addr) (iv32 : Word), ∃ P : Nat → Phase1Key,
    P 0 = { k0 := iv32.extractLsb' 0 16, k1 := iv32.extractLsb' 16 16, k2 := pairAt ta.toList 0, k3 := pairAt ta.toList 2,
            k4 := pairAt ta.toList 4 } ∧
    (∀ t, t < 8 → phase1PassTakes tk.toList t (P t) (P (t + 1))) ∧
    tkipPhase1 tk ta iv32 = P 8) ∧
  (∀ (tk : Block) (p : Phase1Key) (iv16 : Half), ∃ a b : Nat → Half,
    phase2Takes tk.toList p iv16 a b ∧ tkipPhase2 tk p iv16 = rc4KeyOf tk.toList iv16 b) ∧
  phase2Takes tkipExampleTk.toList ⟨0x3DD2#16, 0x016E#16, 0x76F4#16, 0x8697#16, 0xB2E8#16⟩ 0x0001#16
    (fun k => phase2ExampleMiddle.getD k 0#16) (fun k => phase2ExampleEnd.getD k 0#16) ∧
  (∀ v : Half, tkipSbox v
    = tkipSboxByte (v.extractLsb' 0 8)
      ^^^ (tkipSboxByte (v.extractLsb' 8 8) <<< 8 ||| tkipSboxByte (v.extractLsb' 8 8) >>> 8)) ∧
  (∀ b : Byte, tkipSboxByte b
    = (xtime (sbox b)).setWidth 16 <<< 8 ||| (xtime (sbox b) ^^^ sbox b).setWidth 16) ∧
  tkipSbox 0x0000#16 = 0x6363#16 ∧ tkipSbox 0x0001#16 = 0x5D42#16 ∧ tkipSbox 0x0100#16 = 0x425D#16 ∧
  tkipSbox 0x1234#16 = 0x70A1#16 ∧ tkipSbox 0xFFFF#16 = 0x1616#16 ∧
  ∀ (s : State) (tk : Block), tk.toList = (s.ptk.toList.drop 32).take 16 →
    tkipKey s
      = tkipPhase2 tk
          (tkipPhase1 tk s.a2
            (le32Or (s.byteAt (s.src.toNat + 4)) (s.byteAt (s.src.toNat + 5)) (s.byteAt (s.src.toNat + 6))
              (s.byteAt (s.src.toNat + 7))))
          ((s.byteAt (s.src.toNat + 0)).setWidth 16 <<< 8 ||| (s.byteAt (s.src.toNat + 2)).setWidth 16)

/-- 44_wpa_ccmp.md R115 and R116: the counter blocks and the keystream, what the decrypted data and the received MIC of a frame
are, and the CBC-MAC block by block over `B_0`, the AAD with its length, and the plaintext. -/
def Obligations.CcmCounterModeAndCbcMac : Prop :=
  (∀ (tk ctr : Block) (n : List Byte) (c : Nat), n.length = 13 → c < 65536 →
    ctr.toList = [0x01#8] ++ n ++ [BitVec.ofNat 8 (c / 256), BitVec.ofNat 8 c] → ccmKeyBlock tk n c = aesEnc tk ctr) ∧
  (∀ m : Nat, m ≤ 65535 → (m + 15) / 16 ≤ 4096) ∧
  (∀ (tk : Block) (n : List Byte) (m k : Nat), k < m →
    (ccmKeystream tk n m).getD k 0#8 = (ccmKeyBlock tk n (k / 16 + 1)).toList.getD (k % 16) 0#8) ∧
  (∀ s : State,
    (ccmpPlain s).length = s.len.toNat - 16 ∧
    (∀ k, k < s.len.toNat - 16 →
      (ccmpPlain s).getD k 0#8
        = s.byteAt (s.src.toNat + 8 + k)
          ^^^ (ccmKeyBlock s.ccmpTk (ccmpNonce s) (k / 16 + 1)).toList.getD (k % 16) 0#8) ∧
    (ccmpReceived s).length = 8 ∧
    ∀ k, k < 8 →
      (ccmpReceived s).getD k 0#8
        = s.byteAt (s.src.toNat + 8 + (s.len.toNat - 16) + k)
          ^^^ (ccmKeyBlock s.ccmpTk (ccmpNonce s) 0).toList.getD k 0#8) ∧
  ∀ (tk : Block) (n aad p : List Byte), n.length = 13 → 22 ≤ aad.length → aad.length ≤ 30 → p.length ≤ 65535 →
    ∃ B X : Nat → Block,
      (B 0).toList = [0x59#8] ++ n ++ [BitVec.ofNat 8 (p.length / 256), BitVec.ofNat 8 p.length] ∧
      holdsBlocks B 1 2 ([0x00#8, BitVec.ofNat 8 aad.length] ++ aad) ∧
      holdsBlocks B 3 ((p.length + 15) / 16) p ∧
      X 0 = aesEnc tk (B 0) ∧
      (∀ c, c < 2 + (p.length + 15) / 16 → X (c + 1) = aesEnc tk (xorBlock (X c) (B (c + 1)))) ∧
      ccmMac tk n aad p = (X (2 + (p.length + 15) / 16)).toList.take 8
end

