-- ==== Sys2Proof/Laws/State.lean ====
section
/-! SUPPORT. One lemma per field per named update of State, true by rfl, so that no proof unfolds a record update. -/

namespace Sys2Proof.Machine

/-! ### `done` -/

@[simp] theorem State.done_cipher (s : State) : s.done.cipher = s.cipher := rfl
@[simp] theorem State.done_status (s : State) : s.done.status = .ok := rfl
@[simp] theorem State.done_src (s : State) : s.done.src = s.src := rfl
@[simp] theorem State.done_dst (s : State) : s.done.dst = s.dst := rfl
@[simp] theorem State.done_len (s : State) : s.done.len = s.len := rfl
@[simp] theorem State.done_klen (s : State) : s.done.klen = s.klen := rfl
@[simp] theorem State.done_olen (s : State) : s.done.olen = s.olen := rfl
@[simp] theorem State.done_crcAcc (s : State) : s.done.crcAcc = s.crcAcc := rfl
@[simp] theorem State.done_icsSum (s : State) : s.done.icsSum = s.icsSum := rfl
@[simp] theorem State.done_icsPhase (s : State) : s.done.icsPhase = s.icsPhase := rfl
@[simp] theorem State.done_rc4 (s : State) : s.done.rc4 = s.rc4 := rfl
@[simp] theorem State.done_bssid (s : State) : s.done.bssid = s.bssid := rfl
@[simp] theorem State.done_fc (s : State) : s.done.fc = s.fc := rfl
@[simp] theorem State.done_sc (s : State) : s.done.sc = s.sc := rfl
@[simp] theorem State.done_qc (s : State) : s.done.qc = s.qc := rfl
@[simp] theorem State.done_a1 (s : State) : s.done.a1 = s.a1 := rfl
@[simp] theorem State.done_a2 (s : State) : s.done.a2 = s.a2 := rfl
@[simp] theorem State.done_a3 (s : State) : s.done.a3 = s.a3 := rfl
@[simp] theorem State.done_a4 (s : State) : s.done.a4 = s.a4 := rfl
@[simp] theorem State.done_ptk (s : State) : s.done.ptk = s.ptk := rfl
@[simp] theorem State.done_key (s : State) : s.done.key = s.key := rfl
@[simp] theorem State.done_mem (s : State) : s.done.mem = s.mem := rfl
@[simp] theorem State.done_cfg (s : State) : s.done.cfg = s.cfg := rfl
@[simp] theorem State.done_draws (s : State) : s.done.draws = s.draws := rfl
@[simp] theorem State.done_inbox (s : State) : s.done.inbox = s.inbox := rfl
@[simp] theorem State.done_reply (s : State) : s.done.reply = s.reply := rfl

/-! ### `raise` -/

@[simp] theorem State.raise_cipher (s : State) (c : Code) : (s.raise c).cipher = s.cipher := rfl
@[simp] theorem State.raise_status (s : State) (c : Code) : (s.raise c).status = c := rfl
@[simp] theorem State.raise_src (s : State) (c : Code) : (s.raise c).src = s.src := rfl
@[simp] theorem State.raise_dst (s : State) (c : Code) : (s.raise c).dst = s.dst := rfl
@[simp] theorem State.raise_len (s : State) (c : Code) : (s.raise c).len = s.len := rfl
@[simp] theorem State.raise_klen (s : State) (c : Code) : (s.raise c).klen = s.klen := rfl
@[simp] theorem State.raise_olen (s : State) (c : Code) : (s.raise c).olen = s.olen := rfl
@[simp] theorem State.raise_crcAcc (s : State) (c : Code) : (s.raise c).crcAcc = s.crcAcc := rfl
@[simp] theorem State.raise_icsSum (s : State) (c : Code) : (s.raise c).icsSum = s.icsSum := rfl
@[simp] theorem State.raise_icsPhase (s : State) (c : Code) : (s.raise c).icsPhase = s.icsPhase := rfl
@[simp] theorem State.raise_rc4 (s : State) (c : Code) : (s.raise c).rc4 = s.rc4 := rfl
@[simp] theorem State.raise_bssid (s : State) (c : Code) : (s.raise c).bssid = s.bssid := rfl
@[simp] theorem State.raise_fc (s : State) (c : Code) : (s.raise c).fc = s.fc := rfl
@[simp] theorem State.raise_sc (s : State) (c : Code) : (s.raise c).sc = s.sc := rfl
@[simp] theorem State.raise_qc (s : State) (c : Code) : (s.raise c).qc = s.qc := rfl
@[simp] theorem State.raise_a1 (s : State) (c : Code) : (s.raise c).a1 = s.a1 := rfl
@[simp] theorem State.raise_a2 (s : State) (c : Code) : (s.raise c).a2 = s.a2 := rfl
@[simp] theorem State.raise_a3 (s : State) (c : Code) : (s.raise c).a3 = s.a3 := rfl
@[simp] theorem State.raise_a4 (s : State) (c : Code) : (s.raise c).a4 = s.a4 := rfl
@[simp] theorem State.raise_ptk (s : State) (c : Code) : (s.raise c).ptk = s.ptk := rfl
@[simp] theorem State.raise_key (s : State) (c : Code) : (s.raise c).key = s.key := rfl
@[simp] theorem State.raise_mem (s : State) (c : Code) : (s.raise c).mem = s.mem := rfl
@[simp] theorem State.raise_cfg (s : State) (c : Code) : (s.raise c).cfg = s.cfg := rfl
@[simp] theorem State.raise_draws (s : State) (c : Code) : (s.raise c).draws = s.draws := rfl
@[simp] theorem State.raise_inbox (s : State) (c : Code) : (s.raise c).inbox = s.inbox := rfl
@[simp] theorem State.raise_reply (s : State) (c : Code) : (s.raise c).reply = s.reply := rfl

/-! ### `raisePipeline` -/

@[simp] theorem State.raisePipeline_cipher (s : State) (c : Code) : (s.raisePipeline c).cipher = s.cipher := rfl
@[simp] theorem State.raisePipeline_status (s : State) (c : Code) : (s.raisePipeline c).status = c := rfl
@[simp] theorem State.raisePipeline_src (s : State) (c : Code) : (s.raisePipeline c).src = s.src := rfl
@[simp] theorem State.raisePipeline_dst (s : State) (c : Code) : (s.raisePipeline c).dst = s.dst := rfl
@[simp] theorem State.raisePipeline_len (s : State) (c : Code) : (s.raisePipeline c).len = s.len := rfl
@[simp] theorem State.raisePipeline_klen (s : State) (c : Code) : (s.raisePipeline c).klen = s.klen := rfl
@[simp] theorem State.raisePipeline_olen (s : State) (c : Code) : (s.raisePipeline c).olen = 0#32 := rfl
@[simp] theorem State.raisePipeline_crcAcc (s : State) (c : Code) : (s.raisePipeline c).crcAcc = s.crcAcc := rfl
@[simp] theorem State.raisePipeline_icsSum (s : State) (c : Code) : (s.raisePipeline c).icsSum = s.icsSum := rfl
@[simp] theorem State.raisePipeline_icsPhase (s : State) (c : Code) : (s.raisePipeline c).icsPhase = s.icsPhase := rfl
@[simp] theorem State.raisePipeline_rc4 (s : State) (c : Code) : (s.raisePipeline c).rc4 = s.rc4 := rfl
@[simp] theorem State.raisePipeline_bssid (s : State) (c : Code) : (s.raisePipeline c).bssid = s.bssid := rfl
@[simp] theorem State.raisePipeline_fc (s : State) (c : Code) : (s.raisePipeline c).fc = s.fc := rfl
@[simp] theorem State.raisePipeline_sc (s : State) (c : Code) : (s.raisePipeline c).sc = s.sc := rfl
@[simp] theorem State.raisePipeline_qc (s : State) (c : Code) : (s.raisePipeline c).qc = s.qc := rfl
@[simp] theorem State.raisePipeline_a1 (s : State) (c : Code) : (s.raisePipeline c).a1 = s.a1 := rfl
@[simp] theorem State.raisePipeline_a2 (s : State) (c : Code) : (s.raisePipeline c).a2 = s.a2 := rfl
@[simp] theorem State.raisePipeline_a3 (s : State) (c : Code) : (s.raisePipeline c).a3 = s.a3 := rfl
@[simp] theorem State.raisePipeline_a4 (s : State) (c : Code) : (s.raisePipeline c).a4 = s.a4 := rfl
@[simp] theorem State.raisePipeline_ptk (s : State) (c : Code) : (s.raisePipeline c).ptk = s.ptk := rfl
@[simp] theorem State.raisePipeline_key (s : State) (c : Code) : (s.raisePipeline c).key = s.key := rfl
@[simp] theorem State.raisePipeline_mem (s : State) (c : Code) : (s.raisePipeline c).mem = s.mem := rfl
@[simp] theorem State.raisePipeline_cfg (s : State) (c : Code) : (s.raisePipeline c).cfg = s.cfg := rfl
@[simp] theorem State.raisePipeline_draws (s : State) (c : Code) : (s.raisePipeline c).draws = s.draws := rfl
@[simp] theorem State.raisePipeline_inbox (s : State) (c : Code) : (s.raisePipeline c).inbox = s.inbox := rfl
@[simp] theorem State.raisePipeline_reply (s : State) (c : Code) : (s.raisePipeline c).reply = s.reply := rfl

/-! ### `memWrite` -/

@[simp] theorem State.memWrite_cipher (s : State) (a : Nat) (v : List Byte) : (s.memWrite a v).cipher = s.cipher := rfl
@[simp] theorem State.memWrite_status (s : State) (a : Nat) (v : List Byte) : (s.memWrite a v).status = s.status := rfl
@[simp] theorem State.memWrite_src (s : State) (a : Nat) (v : List Byte) : (s.memWrite a v).src = s.src := rfl
@[simp] theorem State.memWrite_dst (s : State) (a : Nat) (v : List Byte) : (s.memWrite a v).dst = s.dst := rfl
@[simp] theorem State.memWrite_len (s : State) (a : Nat) (v : List Byte) : (s.memWrite a v).len = s.len := rfl
@[simp] theorem State.memWrite_klen (s : State) (a : Nat) (v : List Byte) : (s.memWrite a v).klen = s.klen := rfl
@[simp] theorem State.memWrite_olen (s : State) (a : Nat) (v : List Byte) : (s.memWrite a v).olen = s.olen := rfl
@[simp] theorem State.memWrite_crcAcc (s : State) (a : Nat) (v : List Byte) : (s.memWrite a v).crcAcc = s.crcAcc := rfl
@[simp] theorem State.memWrite_icsSum (s : State) (a : Nat) (v : List Byte) : (s.memWrite a v).icsSum = s.icsSum := rfl
@[simp] theorem State.memWrite_icsPhase (s : State) (a : Nat) (v : List Byte) : (s.memWrite a v).icsPhase = s.icsPhase := rfl
@[simp] theorem State.memWrite_rc4 (s : State) (a : Nat) (v : List Byte) : (s.memWrite a v).rc4 = s.rc4 := rfl
@[simp] theorem State.memWrite_bssid (s : State) (a : Nat) (v : List Byte) : (s.memWrite a v).bssid = s.bssid := rfl
@[simp] theorem State.memWrite_fc (s : State) (a : Nat) (v : List Byte) : (s.memWrite a v).fc = s.fc := rfl
@[simp] theorem State.memWrite_sc (s : State) (a : Nat) (v : List Byte) : (s.memWrite a v).sc = s.sc := rfl
@[simp] theorem State.memWrite_qc (s : State) (a : Nat) (v : List Byte) : (s.memWrite a v).qc = s.qc := rfl
@[simp] theorem State.memWrite_a1 (s : State) (a : Nat) (v : List Byte) : (s.memWrite a v).a1 = s.a1 := rfl
@[simp] theorem State.memWrite_a2 (s : State) (a : Nat) (v : List Byte) : (s.memWrite a v).a2 = s.a2 := rfl
@[simp] theorem State.memWrite_a3 (s : State) (a : Nat) (v : List Byte) : (s.memWrite a v).a3 = s.a3 := rfl
@[simp] theorem State.memWrite_a4 (s : State) (a : Nat) (v : List Byte) : (s.memWrite a v).a4 = s.a4 := rfl
@[simp] theorem State.memWrite_ptk (s : State) (a : Nat) (v : List Byte) : (s.memWrite a v).ptk = s.ptk := rfl
@[simp] theorem State.memWrite_key (s : State) (a : Nat) (v : List Byte) : (s.memWrite a v).key = s.key := rfl
@[simp] theorem State.memWrite_mem (s : State) (a : Nat) (v : List Byte) : (s.memWrite a v).mem = s.mem.storeRange a v := rfl
@[simp] theorem State.memWrite_cfg (s : State) (a : Nat) (v : List Byte) : (s.memWrite a v).cfg = s.cfg := rfl
@[simp] theorem State.memWrite_draws (s : State) (a : Nat) (v : List Byte) : (s.memWrite a v).draws = s.draws := rfl
@[simp] theorem State.memWrite_inbox (s : State) (a : Nat) (v : List Byte) : (s.memWrite a v).inbox = s.inbox := rfl
@[simp] theorem State.memWrite_reply (s : State) (a : Nat) (v : List Byte) : (s.memWrite a v).reply = s.reply := rfl

/-! ### `dstWrite` -/

@[simp] theorem State.dstWrite_cipher (s : State) (v : List Byte) : (s.dstWrite v).cipher = s.cipher := rfl
@[simp] theorem State.dstWrite_status (s : State) (v : List Byte) : (s.dstWrite v).status = s.status := rfl
@[simp] theorem State.dstWrite_src (s : State) (v : List Byte) : (s.dstWrite v).src = s.src := rfl
@[simp] theorem State.dstWrite_dst (s : State) (v : List Byte) : (s.dstWrite v).dst = s.dst := rfl
@[simp] theorem State.dstWrite_len (s : State) (v : List Byte) : (s.dstWrite v).len = s.len := rfl
@[simp] theorem State.dstWrite_klen (s : State) (v : List Byte) : (s.dstWrite v).klen = s.klen := rfl
@[simp] theorem State.dstWrite_olen (s : State) (v : List Byte) : (s.dstWrite v).olen = s.olen := rfl
@[simp] theorem State.dstWrite_crcAcc (s : State) (v : List Byte) : (s.dstWrite v).crcAcc = s.crcAcc := rfl
@[simp] theorem State.dstWrite_icsSum (s : State) (v : List Byte) : (s.dstWrite v).icsSum = s.icsSum := rfl
@[simp] theorem State.dstWrite_icsPhase (s : State) (v : List Byte) : (s.dstWrite v).icsPhase = s.icsPhase := rfl
@[simp] theorem State.dstWrite_rc4 (s : State) (v : List Byte) : (s.dstWrite v).rc4 = s.rc4 := rfl
@[simp] theorem State.dstWrite_bssid (s : State) (v : List Byte) : (s.dstWrite v).bssid = s.bssid := rfl
@[simp] theorem State.dstWrite_fc (s : State) (v : List Byte) : (s.dstWrite v).fc = s.fc := rfl
@[simp] theorem State.dstWrite_sc (s : State) (v : List Byte) : (s.dstWrite v).sc = s.sc := rfl
@[simp] theorem State.dstWrite_qc (s : State) (v : List Byte) : (s.dstWrite v).qc = s.qc := rfl
@[simp] theorem State.dstWrite_a1 (s : State) (v : List Byte) : (s.dstWrite v).a1 = s.a1 := rfl
@[simp] theorem State.dstWrite_a2 (s : State) (v : List Byte) : (s.dstWrite v).a2 = s.a2 := rfl
@[simp] theorem State.dstWrite_a3 (s : State) (v : List Byte) : (s.dstWrite v).a3 = s.a3 := rfl
@[simp] theorem State.dstWrite_a4 (s : State) (v : List Byte) : (s.dstWrite v).a4 = s.a4 := rfl
@[simp] theorem State.dstWrite_ptk (s : State) (v : List Byte) : (s.dstWrite v).ptk = s.ptk := rfl
@[simp] theorem State.dstWrite_key (s : State) (v : List Byte) : (s.dstWrite v).key = s.key := rfl
@[simp] theorem State.dstWrite_mem (s : State) (v : List Byte) : (s.dstWrite v).mem = s.mem.storeRange s.dst.toNat v := rfl
@[simp] theorem State.dstWrite_cfg (s : State) (v : List Byte) : (s.dstWrite v).cfg = s.cfg := rfl
@[simp] theorem State.dstWrite_draws (s : State) (v : List Byte) : (s.dstWrite v).draws = s.draws := rfl
@[simp] theorem State.dstWrite_inbox (s : State) (v : List Byte) : (s.dstWrite v).inbox = s.inbox := rfl
@[simp] theorem State.dstWrite_reply (s : State) (v : List Byte) : (s.dstWrite v).reply = s.reply := rfl

/-! ### `commitPlaintext` -/

@[simp] theorem commitPlaintext_cipher (s : State) (p : List Byte) : (commitPlaintext s p).cipher = s.cipher := rfl
@[simp] theorem commitPlaintext_status (s : State) (p : List Byte) : (commitPlaintext s p).status = .ok := rfl
@[simp] theorem commitPlaintext_src (s : State) (p : List Byte) : (commitPlaintext s p).src = s.src := rfl
@[simp] theorem commitPlaintext_dst (s : State) (p : List Byte) : (commitPlaintext s p).dst = s.dst := rfl
@[simp] theorem commitPlaintext_len (s : State) (p : List Byte) : (commitPlaintext s p).len = s.len := rfl
@[simp] theorem commitPlaintext_klen (s : State) (p : List Byte) : (commitPlaintext s p).klen = s.klen := rfl
@[simp] theorem commitPlaintext_olen (s : State) (p : List Byte) : (commitPlaintext s p).olen = BitVec.ofNat 32 p.length := rfl
@[simp] theorem commitPlaintext_crcAcc (s : State) (p : List Byte) : (commitPlaintext s p).crcAcc = s.crcAcc := rfl
@[simp] theorem commitPlaintext_icsSum (s : State) (p : List Byte) : (commitPlaintext s p).icsSum = s.icsSum := rfl
@[simp] theorem commitPlaintext_icsPhase (s : State) (p : List Byte) : (commitPlaintext s p).icsPhase = s.icsPhase := rfl
@[simp] theorem commitPlaintext_rc4 (s : State) (p : List Byte) : (commitPlaintext s p).rc4 = s.rc4 := rfl
@[simp] theorem commitPlaintext_bssid (s : State) (p : List Byte) : (commitPlaintext s p).bssid = s.bssid := rfl
@[simp] theorem commitPlaintext_fc (s : State) (p : List Byte) : (commitPlaintext s p).fc = clearProtected s.fc := rfl
@[simp] theorem commitPlaintext_sc (s : State) (p : List Byte) : (commitPlaintext s p).sc = s.sc := rfl
@[simp] theorem commitPlaintext_qc (s : State) (p : List Byte) : (commitPlaintext s p).qc = s.qc := rfl
@[simp] theorem commitPlaintext_a1 (s : State) (p : List Byte) : (commitPlaintext s p).a1 = s.a1 := rfl
@[simp] theorem commitPlaintext_a2 (s : State) (p : List Byte) : (commitPlaintext s p).a2 = s.a2 := rfl
@[simp] theorem commitPlaintext_a3 (s : State) (p : List Byte) : (commitPlaintext s p).a3 = s.a3 := rfl
@[simp] theorem commitPlaintext_a4 (s : State) (p : List Byte) : (commitPlaintext s p).a4 = s.a4 := rfl
@[simp] theorem commitPlaintext_ptk (s : State) (p : List Byte) : (commitPlaintext s p).ptk = s.ptk := rfl
@[simp] theorem commitPlaintext_key (s : State) (p : List Byte) : (commitPlaintext s p).key = s.key := rfl
@[simp] theorem commitPlaintext_mem (s : State) (p : List Byte) : (commitPlaintext s p).mem = s.mem.storeRange s.dst.toNat p := rfl
@[simp] theorem commitPlaintext_cfg (s : State) (p : List Byte) : (commitPlaintext s p).cfg = s.cfg := rfl
@[simp] theorem commitPlaintext_draws (s : State) (p : List Byte) : (commitPlaintext s p).draws = s.draws := rfl
@[simp] theorem commitPlaintext_inbox (s : State) (p : List Byte) : (commitPlaintext s p).inbox = s.inbox := rfl
@[simp] theorem commitPlaintext_reply (s : State) (p : List Byte) : (commitPlaintext s p).reply = s.reply := rfl

/-! ### `answered` -/

@[simp] theorem State.answered_cipher (s : State) (r : Reply) : (s.answered r).cipher = s.cipher := rfl
@[simp] theorem State.answered_status (s : State) (r : Reply) : (s.answered r).status = s.status := rfl
@[simp] theorem State.answered_src (s : State) (r : Reply) : (s.answered r).src = s.src := rfl
@[simp] theorem State.answered_dst (s : State) (r : Reply) : (s.answered r).dst = s.dst := rfl
@[simp] theorem State.answered_len (s : State) (r : Reply) : (s.answered r).len = s.len := rfl
@[simp] theorem State.answered_klen (s : State) (r : Reply) : (s.answered r).klen = s.klen := rfl
@[simp] theorem State.answered_olen (s : State) (r : Reply) : (s.answered r).olen = s.olen := rfl
@[simp] theorem State.answered_crcAcc (s : State) (r : Reply) : (s.answered r).crcAcc = s.crcAcc := rfl
@[simp] theorem State.answered_icsSum (s : State) (r : Reply) : (s.answered r).icsSum = s.icsSum := rfl
@[simp] theorem State.answered_icsPhase (s : State) (r : Reply) : (s.answered r).icsPhase = s.icsPhase := rfl
@[simp] theorem State.answered_rc4 (s : State) (r : Reply) : (s.answered r).rc4 = s.rc4 := rfl
@[simp] theorem State.answered_bssid (s : State) (r : Reply) : (s.answered r).bssid = s.bssid := rfl
@[simp] theorem State.answered_fc (s : State) (r : Reply) : (s.answered r).fc = s.fc := rfl
@[simp] theorem State.answered_sc (s : State) (r : Reply) : (s.answered r).sc = s.sc := rfl
@[simp] theorem State.answered_qc (s : State) (r : Reply) : (s.answered r).qc = s.qc := rfl
@[simp] theorem State.answered_a1 (s : State) (r : Reply) : (s.answered r).a1 = s.a1 := rfl
@[simp] theorem State.answered_a2 (s : State) (r : Reply) : (s.answered r).a2 = s.a2 := rfl
@[simp] theorem State.answered_a3 (s : State) (r : Reply) : (s.answered r).a3 = s.a3 := rfl
@[simp] theorem State.answered_a4 (s : State) (r : Reply) : (s.answered r).a4 = s.a4 := rfl
@[simp] theorem State.answered_ptk (s : State) (r : Reply) : (s.answered r).ptk = s.ptk := rfl
@[simp] theorem State.answered_key (s : State) (r : Reply) : (s.answered r).key = s.key := rfl
@[simp] theorem State.answered_mem (s : State) (r : Reply) : (s.answered r).mem = s.mem := rfl
@[simp] theorem State.answered_cfg (s : State) (r : Reply) : (s.answered r).cfg = s.cfg := rfl
@[simp] theorem State.answered_draws (s : State) (r : Reply) : (s.answered r).draws = s.draws + 1 := rfl
@[simp] theorem State.answered_inbox (s : State) (r : Reply) : (s.answered r).inbox = s.inbox := rfl
@[simp] theorem State.answered_reply (s : State) (r : Reply) : (s.answered r).reply = some r := rfl

/-! ### `offerCommand` -/

@[simp] theorem State.offerCommand_cipher (s : State) (w : Word) : (s.offerCommand w).cipher = s.cipher := rfl
@[simp] theorem State.offerCommand_status (s : State) (w : Word) : (s.offerCommand w).status = s.status := rfl
@[simp] theorem State.offerCommand_src (s : State) (w : Word) : (s.offerCommand w).src = s.src := rfl
@[simp] theorem State.offerCommand_dst (s : State) (w : Word) : (s.offerCommand w).dst = s.dst := rfl
@[simp] theorem State.offerCommand_len (s : State) (w : Word) : (s.offerCommand w).len = s.len := rfl
@[simp] theorem State.offerCommand_klen (s : State) (w : Word) : (s.offerCommand w).klen = s.klen := rfl
@[simp] theorem State.offerCommand_olen (s : State) (w : Word) : (s.offerCommand w).olen = s.olen := rfl
@[simp] theorem State.offerCommand_crcAcc (s : State) (w : Word) : (s.offerCommand w).crcAcc = s.crcAcc := rfl
@[simp] theorem State.offerCommand_icsSum (s : State) (w : Word) : (s.offerCommand w).icsSum = s.icsSum := rfl
@[simp] theorem State.offerCommand_icsPhase (s : State) (w : Word) : (s.offerCommand w).icsPhase = s.icsPhase := rfl
@[simp] theorem State.offerCommand_rc4 (s : State) (w : Word) : (s.offerCommand w).rc4 = s.rc4 := rfl
@[simp] theorem State.offerCommand_bssid (s : State) (w : Word) : (s.offerCommand w).bssid = s.bssid := rfl
@[simp] theorem State.offerCommand_fc (s : State) (w : Word) : (s.offerCommand w).fc = s.fc := rfl
@[simp] theorem State.offerCommand_sc (s : State) (w : Word) : (s.offerCommand w).sc = s.sc := rfl
@[simp] theorem State.offerCommand_qc (s : State) (w : Word) : (s.offerCommand w).qc = s.qc := rfl
@[simp] theorem State.offerCommand_a1 (s : State) (w : Word) : (s.offerCommand w).a1 = s.a1 := rfl
@[simp] theorem State.offerCommand_a2 (s : State) (w : Word) : (s.offerCommand w).a2 = s.a2 := rfl
@[simp] theorem State.offerCommand_a3 (s : State) (w : Word) : (s.offerCommand w).a3 = s.a3 := rfl
@[simp] theorem State.offerCommand_a4 (s : State) (w : Word) : (s.offerCommand w).a4 = s.a4 := rfl
@[simp] theorem State.offerCommand_ptk (s : State) (w : Word) : (s.offerCommand w).ptk = s.ptk := rfl
@[simp] theorem State.offerCommand_key (s : State) (w : Word) : (s.offerCommand w).key = s.key := rfl
@[simp] theorem State.offerCommand_mem (s : State) (w : Word) : (s.offerCommand w).mem = s.mem := rfl
@[simp] theorem State.offerCommand_cfg (s : State) (w : Word) : (s.offerCommand w).cfg = s.cfg := rfl
@[simp] theorem State.offerCommand_draws (s : State) (w : Word) : (s.offerCommand w).draws = s.draws := rfl
@[simp] theorem State.offerCommand_inbox (s : State) (w : Word) : (s.offerCommand w).inbox = .write 32 0x0C w :: s.inbox := rfl
@[simp] theorem State.offerCommand_reply (s : State) (w : Word) : (s.offerCommand w).reply = s.reply := rfl

end Sys2Proof.Machine
end

