-- ==== Sys2Proof/Laws/Memory.lean ====
section
/-! SUPPORT. The packet buffer: what a store changes and leaves alone, that it keeps the canonical form, and the readings of
a range. -/

namespace Sys2Proof.Machine

/-! ### One byte -/

/-- A store is read back at its own address and leaves every other address alone. -/
theorem Memory.lookup_store (m : Memory) (a : Nat) (v : Byte) (x : Nat) :
    (m.store a v).lookup x = if x = a then some v else m.lookup x := by
  induction m with
  | nil => simp [Memory.store, Memory.lookup, eq_comm]
  | cons c m ih =>
    obtain ⟨k, b⟩ := c
    simp only [Memory.store]
    split
    · simp only [Memory.lookup, eq_comm]
    · split
      · subst_vars
        by_cases h : k = x
        · simp [Memory.lookup, h]
        · simp [Memory.lookup, h, show ¬ x = k from fun e => h e.symm]
      · simp only [Memory.lookup, ih]
        by_cases h : k = x
        · subst h; simp [show ¬ k = a by omega]
        · simp [h]

/-- The addresses of a store are the old ones and the address stored to. -/
theorem Memory.mem_store {m : Memory} {a : Nat} {v : Byte} {c : Host.Cell} (h : c ∈ m.store a v) :
    c = (a, v) ∨ c ∈ m := by
  induction m with
  | nil => simpa [Memory.store] using h
  | cons d m ih =>
    obtain ⟨k, b⟩ := d
    simp only [Memory.store] at h
    split at h
    · simpa using h
    · split at h
      · subst_vars
        rcases List.mem_cons.mp h with h | h
        · exact .inl h
        · exact .inr (List.mem_cons_of_mem _ h)
      · rcases List.mem_cons.mp h with h | h
        · exact .inr (h ▸ List.mem_cons_self)
        · exact (ih h).imp id (List.mem_cons_of_mem _)

/-- A store keeps the canonical form. -/
theorem Memory.wf_store {m : Memory} (h : m.wf) (a : Nat) (v : Byte) : (m.store a v).wf := by
  induction m with
  | nil => simp [Memory.store, Memory.wf]
  | cons c m ih =>
    obtain ⟨k, b⟩ := c
    obtain ⟨hk, hm⟩ := List.pairwise_cons.mp h
    simp only [Memory.store]
    split
    next hlt =>
      refine List.pairwise_cons.mpr ⟨fun d hd => ?_, h⟩
      rcases List.mem_cons.mp hd with rfl | hd
      · exact hlt
      · exact lt_trans hlt (hk d hd)
    · split
      · exact List.pairwise_cons.mpr ⟨hk, hm⟩
      · refine List.pairwise_cons.mpr ⟨fun d hd => ?_, ih hm⟩
        rcases Memory.mem_store hd with rfl | hd
        · show k < a
          omega
        · exact hk d hd

/-! ### A range -/

/-- A range store is read back byte by byte and leaves every other address alone. -/
theorem Memory.lookup_storeRange (m : Memory) (a : Nat) (v : List Byte) (x : Nat) :
    (m.storeRange a v).lookup x = if a ≤ x ∧ x < a + v.length then v[x - a]? else m.lookup x := by
  induction v generalizing m a with
  | nil => simp [Memory.storeRange, show ¬ (a ≤ x ∧ x < a) by omega]
  | cons b v ih =>
    simp only [Memory.storeRange, ih, Memory.lookup_store, List.length_cons]
    by_cases h : x = a
    · subst h; simp
    · by_cases h2 : a + 1 ≤ x ∧ x < a + 1 + v.length
      · rw [if_pos h2, if_pos (by omega), show x - a = (x - (a + 1)) + 1 by omega, List.getElem?_cons_succ]
      · rw [if_neg h2, if_neg h, if_neg (by omega)]

/-- A range store keeps the canonical form. -/
theorem Memory.wf_storeRange {m : Memory} (h : m.wf) (a : Nat) (v : List Byte) : (m.storeRange a v).wf := by
  induction v generalizing m a with
  | nil => exact h
  | cons b v ih => exact ih (Memory.wf_store h a b) (a + 1)

/-- The addresses of a range store are the old ones and those of the range. -/
theorem Memory.mem_storeRange {m : Memory} {a : Nat} {v : List Byte} {c : Host.Cell} (h : c ∈ m.storeRange a v) :
    (a ≤ c.1 ∧ c.1 < a + v.length) ∨ c ∈ m := by
  induction v generalizing m a with
  | nil => exact .inr h
  | cons b v ih =>
    rcases ih h with h | h
    · exact .inl (by simp only [List.length_cons]; omega)
    · rcases Memory.mem_store h with rfl | h
      · exact .inl (by simp)
      · exact .inr h

/-! ### Reading through the state -/

/-- A byte read depends on the buffer and the event count alone. -/
theorem State.byteAt_congr {s t : State} (hm : t.mem = s.mem) (hd : t.draws = s.draws) (a : Nat) :
    t.byteAt a = s.byteAt a := by simp [State.byteAt, hm, hd]

/-- A range read depends on the buffer and the event count alone. -/
theorem State.memRead_congr {s t : State} (hm : t.mem = s.mem) (hd : t.draws = s.draws) (a n : Nat) :
    t.memRead a n = s.memRead a n := by
  induction n generalizing a with
  | zero => rfl
  | succ n ih => simp only [State.memRead, ih, State.byteAt_congr hm hd]

/-- A range read is the bytes of the range in order (00_scope.md R7). -/
theorem State.memRead_eq_map (s : State) (a n : Nat) :
    s.memRead a n = (List.range n).map fun k => s.byteAt (a + k) := by
  induction n generalizing a with
  | zero => rfl
  | succ n ih =>
    rw [State.memRead, ih, List.range_succ_eq_map, List.map_cons, List.map_map]
    simp only [Nat.add_zero, Function.comp_def, Nat.succ_eq_add_one, Nat.add_assoc, Nat.add_comm 1]

theorem State.memRead_length (s : State) (a n : Nat) : (s.memRead a n).length = n := by
  simp [State.memRead_eq_map]

/-- A range read in two pieces. -/
theorem State.memRead_add (s : State) (a n m : Nat) : s.memRead a (n + m) = s.memRead a n ++ s.memRead (a + n) m := by
  simp only [State.memRead_eq_map, List.range_add, List.map_append, List.map_map, Function.comp_def, Nat.add_assoc]

/-- Reading a byte after writing a range: the written byte inside it, the old byte outside it. -/
theorem State.byteAt_memWrite (s : State) (a : Nat) (v : List Byte) (x : Nat) :
    (s.memWrite a v).byteAt x = if h : a ≤ x ∧ x < a + v.length then v[x - a]'(by omega) else s.byteAt x := by
  simp only [State.byteAt, State.memWrite_mem, State.memWrite_draws, Memory.lookup_storeRange]
  by_cases h : a ≤ x ∧ x < a + v.length
  · rw [if_pos h, dif_pos h, List.getElem?_eq_getElem (show x - a < v.length by omega)]
  · rw [if_neg h, dif_neg h]

/-- The same for a write at `DST`. -/
theorem State.byteAt_dstWrite (s : State) (v : List Byte) (x : Nat) :
    (s.dstWrite v).byteAt x
      = if h : s.dst.toNat ≤ x ∧ x < s.dst.toNat + v.length then v[x - s.dst.toNat]'(by omega) else s.byteAt x :=
  s.byteAt_memWrite s.dst.toNat v x

/-- Reading back exactly the range just written. -/
theorem State.memRead_memWrite (s : State) (a : Nat) (v : List Byte) : (s.memWrite a v).memRead a v.length = v := by
  apply List.ext_getElem
  · simp [State.memRead_length]
  · intro k h1 h2
    simp only [State.memRead_eq_map, List.getElem_map, List.getElem_range, State.byteAt_memWrite]
    rw [dif_pos (by omega)]
    congr 1
    omega

/-- A range that a write does not touch reads as before. -/
theorem State.memRead_memWrite_of_disjoint (s : State) (a : Nat) (v : List Byte) (b n : Nat)
    (h : b + n ≤ a ∨ a + v.length ≤ b) : (s.memWrite a v).memRead b n = s.memRead b n := by
  simp only [State.memRead_eq_map]
  refine List.map_congr_left fun k hk => ?_
  have hk := List.mem_range.mp hk
  rw [State.byteAt_memWrite, dif_neg (by omega)]

end Sys2Proof.Machine
end

