-- ==== Sys2Proof/Laws/Units.lean ====
section
/-! SUPPORT. The four units' functions: lengths, concatenation, the keystream byte by byte, and that the RC4 engine keeps its
permutation. -/

namespace Sys2Proof.Machine

/-! ### Byte sequences -/

/-- The two readings of a range are one. -/
theorem State.bytes_eq_memRead (s : State) (a n : Nat) : s.bytes a n = s.memRead a n := (s.memRead_eq_map a n).symm

theorem State.bytes_length (s : State) (a n : Nat) : (s.bytes a n).length = n := by simp [State.bytes]

/-- The source range as the bytes from `SRC + h` on. -/
theorem State.srcBytes_eq_bytes (s : State) (h n : Nat) : s.srcBytes h n = s.bytes (s.src.toNat + h) n :=
  s.memRead_eq_map _ _

theorem State.srcBytes_length (s : State) (h n : Nat) : (s.srcBytes h n).length = n := s.memRead_length _ _

/-- The key bytes are the first `KLEN` bytes of `KEY`, where `KLEN` is at most the size of `KEY`. -/
theorem State.keyBytes_eq_password (s : State) (h : s.klen.toNat ≤ 256) : s.keyBytes = s.password := by
  apply List.ext_getElem
  · simp [State.keyBytes, State.password, h]
  · intro k h1 h2
    have hk : k < s.klen.toNat := by simpa [State.password] using h2
    have hk2 : k < s.key.toList.length := by simp; omega
    simp only [State.keyBytes, State.password, List.getElem_take, List.getElem_map, List.getElem_range]
    rw [List.getD_eq_getElem?_getD, List.getElem?_eq_getElem hk2, Option.getD_some]

theorem xorBytes_length (x y : List Byte) : (xorBytes x y).length = min x.length y.length := by simp [xorBytes]

/-- Exclusive or with the same sequence twice gives back what there was. -/
theorem xorBytes_cancel (x y : List Byte) (h : x.length ≤ y.length) : xorBytes (xorBytes x y) y = x := by
  apply List.ext_getElem
  · simp [xorBytes]; omega
  · intro k h1 h2
    simp [xorBytes]

theorem le32Bytes_length (w : Word) : (le32Bytes w).length = 4 := rfl

/-- The four bytes determine the word. -/
theorem le32Bytes_injective {v w : Word} (h : le32Bytes v = le32Bytes w) : v = w := by
  simp only [le32Bytes, byteLane, List.cons.injEq, and_true] at h
  obtain ⟨h0, h1, h2, h3⟩ := h
  apply BitVec.eq_of_getLsbD_eq
  intro i hi
  have g : ∀ k, ∀ x : Word, i = 8 * k + i % 8 → x.getLsbD i = (x.extractLsb' (8 * k) 8).getLsbD (i % 8) := by
    intro k x e
    rw [BitVec.getLsbD_extractLsb', ← e]
    simp [Nat.mod_lt]
  rcases (show i / 8 = 0 ∨ i / 8 = 1 ∨ i / 8 = 2 ∨ i / 8 = 3 by omega) with e | e | e | e
  · rw [g 0 v (by omega), g 0 w (by omega), h0]
  · rw [g 1 v (by omega), g 1 w (by omega), h1]
  · rw [g 2 v (by omega), g 2 w (by omega), h2]
  · rw [g 3 v (by omega), g 3 w (by omega), h3]

/-! ### The accumulators -/

/-- Accumulating a concatenation (40_crc32.md R70). -/
theorem crcUpd_append (acc : Word) (x y : List Byte) : crcUpd acc (x ++ y) = crcUpd (crcUpd acc x) y :=
  List.foldl_append

/-- Accumulating a concatenation, the phase carried over (41_inet_checksum.md R80). -/
theorem icsUpd_append (sum : Half) (phase : Bool) (x y : List Byte) :
    icsUpd sum phase (x ++ y) = icsUpd (icsUpd sum phase x).1 (icsUpd sum phase x).2 y := by
  induction x generalizing sum phase with
  | nil => rfl
  | cons b x ih => exact ih _ _

/-! ### The RC4 engine -/

theorem rc4Xor_length (r : Rc4) (x : List Byte) : (rc4Xor r x).1.length = x.length := by
  induction x generalizing r with
  | nil => rfl
  | cons b x ih => simp [rc4Xor, ih]

/-- The engine afterwards depends on how many bytes were processed, not on which. -/
theorem rc4Xor_state (r : Rc4) (x : List Byte) : (rc4Xor r x).2 = rc4Advance x.length r := by
  induction x generalizing r with
  | nil => rfl
  | cons b x ih => simp [rc4Xor, rc4Advance, ih]

/-- Output byte `k` is input byte `k` xor keystream byte `k`. -/
theorem rc4Xor_getElem (r : Rc4) (x : List Byte) (k : Nat) (h : k < (rc4Xor r x).1.length) :
    (rc4Xor r x).1[k] = x[k]'(by rwa [rc4Xor_length] at h) ^^^ rc4StreamByte r k := by
  induction x generalizing r k with
  | nil => simp [rc4Xor] at h
  | cons b x ih =>
    cases k with
    | zero => rfl
    | succ k => exact ih (rc4Next r).2 k (by simpa [rc4Xor] using h)

/-- The output of a run over a range, byte by byte. -/
theorem rc4Xor_bytes (r : Rc4) (s : State) (a n : Nat) :
    (rc4Xor r (s.bytes a n)).1 = (List.range n).map fun k => s.byteAt (a + k) ^^^ rc4StreamByte r k := by
  apply List.ext_getElem
  · simp [rc4Xor_length, State.bytes_length]
  · intro k h1 h2
    rw [rc4Xor_getElem]
    simp [State.bytes]

/-- Going on with the same keystream. -/
theorem rc4Advance_add (m n : Nat) (r : Rc4) : rc4Advance (m + n) r = rc4Advance n (rc4Advance m r) := by
  induction m generalizing r with
  | zero => simp [rc4Advance]
  | succ m ih => rw [Nat.succ_add]; exact ih _

theorem sboxSwap_perm (v : Vector Byte 256) (a b : Byte) : (sboxSwap v a b).toList.Perm v.toList :=
  (Vector.swap_perm a.isLt b.isLt).toList

/-- The key schedule ends in a permutation of the byte values (10_state.md R20). -/
theorem rc4Ksa_perm (key : List Byte) : (rc4Ksa key).s.toList.Perm Rc4.identity.toList := by
  have h : ∀ (l : List Nat) (p : Vector Byte 256 × Byte),
      ((l.foldl (rc4KsaStep key) p).1).toList.Perm p.1.toList := by
    intro l
    induction l with
    | nil => intro p; exact .refl _
    | cons k l ih => intro p; exact (ih _).trans (sboxSwap_perm _ _ _)
  exact h _ _

theorem rc4Advance_perm (n : Nat) (r : Rc4) : (rc4Advance n r).s.toList.Perm r.s.toList := by
  induction n generalizing r with
  | zero => exact .refl _
  | succ n ih => exact (ih _).trans (sboxSwap_perm _ _ _)

end Sys2Proof.Machine
end

