-- ==== Sys2Proof/Laws/Pipeline.lean ====
section
/-! SUPPORT. What each shared operation of the pipeline can do, said once: the open step of 43_wep.md R102, the three check
chains, and that every command answers a next state. -/

namespace Sys2Proof.Machine

/-! ### The checks -/

theorem State.srcFits_iff (s : State) (n : Nat) : s.srcFits n = true ↔ s.src.toNat + n ≤ s.cfg.memSize := by
  simp [State.srcFits]

theorem State.dstFits_iff (s : State) (n : Nat) : s.dstFits n = true ↔ s.dst.toNat + n ≤ s.cfg.memSize := by
  simp [State.dstFits]

/-! ### The open step (43_wep.md R102) -/

/-- The data part of the decrypted sequence is the candidate plaintext. -/
theorem rc4Xor_take_eq_openPlain (s : State) (h : Nat) (key : List Byte) :
    (rc4Xor (rc4Ksa key) (s.srcBytes h (s.len.toNat - h))).1.take (s.len.toNat - h - 4) = openPlain s h key := by
  rw [State.srcBytes_eq_bytes, rc4Xor_bytes, ← List.map_take, List.take_range, openPlain,
    show min (s.len.toNat - h - 4) (s.len.toNat - h) = s.len.toNat - h - 4 by omega]

/-- The rest of it is the decrypted check value. -/
theorem rc4Xor_drop_eq_openIcv (s : State) (h : Nat) (key : List Byte) (hl : h + 4 ≤ s.len.toNat) :
    (rc4Xor (rc4Ksa key) (s.srcBytes h (s.len.toNat - h))).1.drop (s.len.toNat - h - 4) = openIcv s h key := by
  rw [State.srcBytes_eq_bytes, rc4Xor_bytes, ← List.map_drop, openIcv]
  have e : (List.range (s.len.toNat - h)).drop (s.len.toNat - h - 4)
      = (List.range 4).map fun k => s.len.toNat - h - 4 + k := by
    conv_lhs => rw [show s.len.toNat - h = (s.len.toNat - h - 4) + 4 by omega, List.range_add]
    simp
  rw [e, List.map_map]
  rfl

/-- The two effects both outcomes of the open step share: the engine after the key schedule and all of the encrypted part,
and the remainder over the candidate plaintext. -/
def afterOpen (s : State) (h : Nat) (key : List Byte) : State :=
  { s with rc4 := rc4Advance (s.len.toNat - h) (rc4Ksa key), crcAcc := crcUpd 0xFFFFFFFF#32 (openPlain s h key) }

@[simp] theorem afterOpen_cipher (s : State) (h : Nat) (key : List Byte) : (afterOpen s h key).cipher = s.cipher := rfl
@[simp] theorem afterOpen_status (s : State) (h : Nat) (key : List Byte) : (afterOpen s h key).status = s.status := rfl
@[simp] theorem afterOpen_src (s : State) (h : Nat) (key : List Byte) : (afterOpen s h key).src = s.src := rfl
@[simp] theorem afterOpen_dst (s : State) (h : Nat) (key : List Byte) : (afterOpen s h key).dst = s.dst := rfl
@[simp] theorem afterOpen_len (s : State) (h : Nat) (key : List Byte) : (afterOpen s h key).len = s.len := rfl
@[simp] theorem afterOpen_klen (s : State) (h : Nat) (key : List Byte) : (afterOpen s h key).klen = s.klen := rfl
@[simp] theorem afterOpen_olen (s : State) (h : Nat) (key : List Byte) : (afterOpen s h key).olen = s.olen := rfl
@[simp] theorem afterOpen_icsSum (s : State) (h : Nat) (key : List Byte) : (afterOpen s h key).icsSum = s.icsSum := rfl
@[simp] theorem afterOpen_icsPhase (s : State) (h : Nat) (key : List Byte) : (afterOpen s h key).icsPhase = s.icsPhase := rfl
@[simp] theorem afterOpen_bssid (s : State) (h : Nat) (key : List Byte) : (afterOpen s h key).bssid = s.bssid := rfl
@[simp] theorem afterOpen_fc (s : State) (h : Nat) (key : List Byte) : (afterOpen s h key).fc = s.fc := rfl
@[simp] theorem afterOpen_sc (s : State) (h : Nat) (key : List Byte) : (afterOpen s h key).sc = s.sc := rfl
@[simp] theorem afterOpen_qc (s : State) (h : Nat) (key : List Byte) : (afterOpen s h key).qc = s.qc := rfl
@[simp] theorem afterOpen_a1 (s : State) (h : Nat) (key : List Byte) : (afterOpen s h key).a1 = s.a1 := rfl
@[simp] theorem afterOpen_a2 (s : State) (h : Nat) (key : List Byte) : (afterOpen s h key).a2 = s.a2 := rfl
@[simp] theorem afterOpen_a3 (s : State) (h : Nat) (key : List Byte) : (afterOpen s h key).a3 = s.a3 := rfl
@[simp] theorem afterOpen_a4 (s : State) (h : Nat) (key : List Byte) : (afterOpen s h key).a4 = s.a4 := rfl
@[simp] theorem afterOpen_ptk (s : State) (h : Nat) (key : List Byte) : (afterOpen s h key).ptk = s.ptk := rfl
@[simp] theorem afterOpen_key (s : State) (h : Nat) (key : List Byte) : (afterOpen s h key).key = s.key := rfl
@[simp] theorem afterOpen_mem (s : State) (h : Nat) (key : List Byte) : (afterOpen s h key).mem = s.mem := rfl
@[simp] theorem afterOpen_cfg (s : State) (h : Nat) (key : List Byte) : (afterOpen s h key).cfg = s.cfg := rfl
@[simp] theorem afterOpen_draws (s : State) (h : Nat) (key : List Byte) : (afterOpen s h key).draws = s.draws := rfl
@[simp] theorem afterOpen_inbox (s : State) (h : Nat) (key : List Byte) : (afterOpen s h key).inbox = s.inbox := rfl
@[simp] theorem afterOpen_reply (s : State) (h : Nat) (key : List Byte) : (afterOpen s h key).reply = s.reply := rfl
@[simp] theorem afterOpen_rc4 (s : State) (h : Nat) (key : List Byte) :
    (afterOpen s h key).rc4 = rc4Advance (s.len.toNat - h) (rc4Ksa key) := rfl
@[simp] theorem afterOpen_crcAcc (s : State) (h : Nat) (key : List Byte) :
    (afterOpen s h key).crcAcc = crcUpd 0xFFFFFFFF#32 (openPlain s h key) := rfl

/-- All the open step can do: commit when the check value matches, else `FAIL`. -/
theorem rc4CrcOpen_cases (key : List Byte) (h : Nat) (s : State) (hl : h + 4 ≤ s.len.toNat) :
    (le32Bytes (crc32 (openPlain s h key)) = openIcv s h key ∧
      rc4CrcOpen key h s = commitPlaintext (afterOpen s h key) (openPlain s h key)) ∨
    (le32Bytes (crc32 (openPlain s h key)) ≠ openIcv s h key ∧
      rc4CrcOpen key h s = (afterOpen s h key).raisePipeline .fail) := by
  have hs : (rc4Xor (rc4Ksa key) (s.srcBytes h (s.len.toNat - h))).2 = rc4Advance (s.len.toNat - h) (rc4Ksa key) := by
    rw [rc4Xor_state, State.srcBytes_length]
  simp only [rc4CrcOpen, rc4Xor_take_eq_openPlain, rc4Xor_drop_eq_openIcv _ _ _ hl, hs]
  by_cases e : le32Bytes (crc32 (openPlain s h key)) = openIcv s h key
  · exact .inl ⟨e, if_pos e⟩
  · exact .inr ⟨e, if_neg e⟩

/-! ### The check chains -/

/-- `WEP_DEC` (43_wep.md R103): which check ends it, or the open step. -/
theorem execWepDec_cases (s : State) :
    (s.len.toNat < s.cfg.wepHdrLen.toNat + 4 ∧ execWepDec s = .next (s.raisePipeline .errLen)) ∨
    (s.cfg.wepHdrLen.toNat + 4 ≤ s.len.toNat ∧ 253 < s.klen.toNat ∧ execWepDec s = .next (s.raisePipeline .errKlen)) ∨
    (s.cfg.wepHdrLen.toNat + 4 ≤ s.len.toNat ∧ s.klen.toNat ≤ 253 ∧
      (s.cfg.memSize < s.src.toNat + s.len.toNat ∨
        s.cfg.memSize < s.dst.toNat + (s.len.toNat - s.cfg.wepHdrLen.toNat - 4)) ∧
      execWepDec s = .next (s.raisePipeline .errRange)) ∨
    (s.cfg.wepHdrLen.toNat + 4 ≤ s.len.toNat ∧ s.klen.toNat ≤ 253 ∧
      s.src.toNat + s.len.toNat ≤ s.cfg.memSize ∧
      s.dst.toNat + (s.len.toNat - s.cfg.wepHdrLen.toNat - 4) ≤ s.cfg.memSize ∧
      execWepDec s = .next (rc4CrcOpen (wepKey s) s.cfg.wepHdrLen.toNat s)) := by
  by_cases h1 : s.len.toNat < s.cfg.wepHdrLen.toNat + 4
  · exact .inl ⟨h1, by simp only [execWepDec, if_pos h1]⟩
  by_cases h2 : 253 < s.klen.toNat
  · exact .inr (.inl ⟨by omega, h2, by simp only [execWepDec, if_neg h1, if_pos h2]⟩)
  by_cases h3 : s.src.toNat + s.len.toNat ≤ s.cfg.memSize
  · by_cases h4 : s.dst.toNat + (s.len.toNat - s.cfg.wepHdrLen.toNat - 4) ≤ s.cfg.memSize
    · exact .inr (.inr (.inr ⟨by omega, by omega, h3, h4, by
        simp [execWepDec, if_neg h1, if_neg h2, State.srcFits, State.dstFits, h3, h4]⟩))
    · exact .inr (.inr (.inl ⟨by omega, by omega, .inr (by omega), by
        simp [execWepDec, if_neg h1, if_neg h2, State.srcFits, State.dstFits, h3, h4]⟩))
  · exact .inr (.inr (.inl ⟨by omega, by omega, .inl (by omega), by
      simp [execWepDec, if_neg h1, if_neg h2, State.srcFits, h3]⟩))

/-- The TKIP path (46_tkip.md R145): which check ends it, or the open step. -/
theorem tkipDecrypt_cases (s : State) :
    (s.len.toNat < 12 ∧ tkipDecrypt s = s.raisePipeline .errLen) ∨
    (12 ≤ s.len.toNat ∧
      (s.cfg.memSize < s.src.toNat + s.len.toNat ∨ s.cfg.memSize < s.dst.toNat + (s.len.toNat - 12)) ∧
      tkipDecrypt s = s.raisePipeline .errRange) ∨
    (12 ≤ s.len.toNat ∧ s.src.toNat + s.len.toNat ≤ s.cfg.memSize ∧
      s.dst.toNat + (s.len.toNat - 12) ≤ s.cfg.memSize ∧ tkipDecrypt s = rc4CrcOpen (tkipKey s) 8 s) := by
  by_cases h1 : s.len.toNat < 12
  · exact .inl ⟨h1, by simp only [tkipDecrypt, if_pos h1]⟩
  by_cases h3 : s.src.toNat + s.len.toNat ≤ s.cfg.memSize
  · by_cases h4 : s.dst.toNat + (s.len.toNat - 12) ≤ s.cfg.memSize
    · exact .inr (.inr ⟨by omega, h3, h4, by simp [tkipDecrypt, if_neg h1, State.srcFits, State.dstFits, h3, h4]⟩)
    · exact .inr (.inl ⟨by omega, .inr (by omega), by
        simp [tkipDecrypt, if_neg h1, State.srcFits, State.dstFits, h3, h4]⟩)
  · exact .inr (.inl ⟨by omega, .inl (by omega), by simp [tkipDecrypt, if_neg h1, State.srcFits, h3]⟩)

theorem ccmKeystream_length (tk : Block) (nonce : List Byte) (m : Nat) :
    m ≤ (ccmKeystream tk nonce m).length := by
  simp [ccmKeystream]
  omega

theorem ccmpPlain_length (s : State) : (ccmpPlain s).length = s.len.toNat - 16 := by
  simp only [ccmpPlain, xorBytes_length, State.bytes_length]
  have := ccmKeystream_length s.ccmpTk (ccmpNonce s) (s.len.toNat - 16)
  omega

/-- The decrypted data as the meaning computes it. -/
theorem ccmCrypt_eq_ccmpPlain (s : State) :
    ccmCrypt s.ccmpTk (ccmpNonce s) (s.srcBytes 8 (s.len.toNat - 16)) = ccmpPlain s := by
  rw [ccmCrypt, State.srcBytes_length, State.srcBytes_eq_bytes, ccmpPlain]

/-- The received MIC as the meaning computes it. -/
theorem ccmMicCrypt_eq_ccmpReceived (s : State) :
    ccmMicCrypt s.ccmpTk (ccmpNonce s) (s.srcBytes (8 + (s.len.toNat - 16)) 8) = ccmpReceived s := by
  rw [ccmMicCrypt, State.srcBytes_eq_bytes, ccmpReceived, Nat.add_assoc]

/-- The CCMP path (R117): which check ends it, or the MIC decides. -/
theorem ccmpDecrypt_cases (s : State) :
    ((s.len.toNat < 16 ∨ 65535 < s.len.toNat - 16) ∧ ccmpDecrypt s = s.raisePipeline .errLen) ∨
    (16 ≤ s.len.toNat ∧ s.len.toNat - 16 ≤ 65535 ∧
      (s.cfg.memSize < s.src.toNat + s.len.toNat ∨ s.cfg.memSize < s.dst.toNat + (s.len.toNat - 16)) ∧
      ccmpDecrypt s = s.raisePipeline .errRange) ∨
    (ccmpChecksPass s ∧ ccmpComputed s = ccmpReceived s ∧ ccmpDecrypt s = commitPlaintext s (ccmpPlain s)) ∨
    (ccmpChecksPass s ∧ ccmpComputed s ≠ ccmpReceived s ∧ ccmpDecrypt s = s.raisePipeline .fail) := by
  by_cases h1 : s.len.toNat < 16
  · exact .inl ⟨.inl h1, by simp only [ccmpDecrypt, if_pos h1]⟩
  by_cases h2 : 65535 < s.len.toNat - 16
  · exact .inl ⟨.inr h2, by simp only [ccmpDecrypt, if_neg h1, if_pos h2]⟩
  by_cases h3 : s.src.toNat + s.len.toNat ≤ s.cfg.memSize
  · by_cases h4 : s.dst.toNat + (s.len.toNat - 16) ≤ s.cfg.memSize
    · have e : ccmpDecrypt s
          = if ccmpComputed s = ccmpReceived s then commitPlaintext s (ccmpPlain s) else s.raisePipeline .fail := by
        simp only [ccmpDecrypt, if_neg h1, if_neg h2, State.srcFits, State.dstFits, h3, h4, decide_true, Bool.not_true,
          Bool.false_eq_true, if_false, ccmCrypt_eq_ccmpPlain, ccmMicCrypt_eq_ccmpReceived]
        rfl
      have c : ccmpChecksPass s := ⟨by omega, by omega, h3, h4⟩
      by_cases m : ccmpComputed s = ccmpReceived s
      · exact .inr (.inr (.inl ⟨c, m, by rw [e, if_pos m]⟩))
      · exact .inr (.inr (.inr ⟨c, m, by rw [e, if_neg m]⟩))
    · exact .inr (.inl ⟨by omega, by omega, .inr (by omega), by
        simp [ccmpDecrypt, if_neg h1, if_neg h2, State.srcFits, State.dstFits, h3, h4]⟩)
  · exact .inr (.inl ⟨by omega, by omega, .inl (by omega), by
      simp [ccmpDecrypt, if_neg h1, if_neg h2, State.srcFits, h3]⟩)

/-! ### Every command answers a next state -/

theorem exec_next (i : Instr) (s : State) : ∃ t, exec i s = .next t := by
  cases i
  case wpaDec =>
    cases h : s.cipher
    · exact ⟨tkipDecrypt s, by simp [exec, execWpaDec, h]⟩
    · exact ⟨ccmpDecrypt s, by simp [exec, execWpaDec, h]⟩
  all_goals exact ⟨_, rfl⟩

end Sys2Proof.Machine
end

