-- ==== Sys2Proof/Laws/Bus.lean ====
section
/-! SUPPORT. What serving a transaction can do, said once, and that the bus reaches no byte outside `MEM`. -/

namespace Sys2Proof.Machine

/-- Executing a written word answers a next state: the command's, or the code `ERR_OP` and nothing else. -/
theorem issue_cases (w : Word) (s : State) :
    (∃ i t, decode w = .ok i ∧ exec i s = .next t ∧ issue w s = .next t) ∨
    ((∃ e, decode w = .error e) ∧ issue w s = .next (s.raise .errOp)) := by
  cases h : decode w with
  | ok i =>
    obtain ⟨t, e⟩ := exec_next i s
    exact .inl ⟨i, t, rfl, e, by simp only [issue, h, e]⟩
  | error e => exact .inr ⟨⟨e, rfl⟩, by simp only [issue, h]⟩

/-- A write answers `ERR` and changes no register, or executes a command, or writes one register. -/
theorem serveWrite_cases (bits off : Nat) (v : Word) (s : State) :
    (accessReg s bits off = none ∧ serveWrite bits off v s = .next (s.answered (.write .err))) ∨
    (accessReg s bits off = some .cmd ∧ ∃ t, issue v s = .next t ∧
      serveWrite bits off v s = .next (t.answered (.write .okay))) ∨
    (∃ r, r ≠ .cmd ∧ accessReg s bits off = some r ∧
      serveWrite bits off v s = .next ((writeReg s r v).answered (.write .okay))) := by
  unfold serveWrite
  split
  next h => exact .inl ⟨h, rfl⟩
  next h =>
    obtain ⟨t, e⟩ : ∃ t, issue v s = .next t := by
      rcases issue_cases v s with ⟨_, t, _, _, e⟩ | ⟨_, e⟩ <;> exact ⟨_, e⟩
    exact .inr (.inl ⟨h, t, e, by rw [e]; rfl⟩)
  next r hr h => exact .inr (.inr ⟨r, fun e => hr e, h, rfl⟩)

/-- A word of the `MEM` window lies inside `MEM` with all its four bytes. -/
theorem accessReg_mem {s : State} {bits off w : Nat} (h : accessReg s bits off = some (.mem w)) :
    4 * w + 4 ≤ s.cfg.memSize := by
  simp only [accessReg] at h
  split at h
  · split at h
    · simp only [regAt] at h
      split at h
      · split at h
        · simp only [Option.some.injEq, Reg.mem.injEq] at h
          omega
        · cases h
      · split at h
        · split at h <;> cases h
        · split at h
          · split at h <;> cases h
          · unfold scalarAt at h
            split at h <;> cases h
    · cases h
  · cases h

end Sys2Proof.Machine
end

