-- ==== Sys2Proof/Laws/PerInstr.lean ====
section
/-! SUPPORT. Statements about every command as syntax, one lemma per constructor. -/

namespace Sys2Proof.Laws

/-- The word of a command is well formed and decodes to it (30_encoding.md R60, R61). -/
def RoundTrip.Statement (i : Instr) : Prop := wordWf (encode i) = true ∧ decode (encode i) = .ok i

theorem RoundTrip.nop : RoundTrip.Statement .nop := ⟨rfl, rfl⟩
theorem RoundTrip.srst : RoundTrip.Statement .srst := ⟨rfl, rfl⟩
theorem RoundTrip.crcInit : RoundTrip.Statement .crcInit := ⟨rfl, rfl⟩
theorem RoundTrip.crcUpd : RoundTrip.Statement .crcUpd := ⟨rfl, rfl⟩
theorem RoundTrip.crcPut : RoundTrip.Statement .crcPut := ⟨rfl, rfl⟩
theorem RoundTrip.icsInit : RoundTrip.Statement .icsInit := ⟨rfl, rfl⟩
theorem RoundTrip.icsUpd : RoundTrip.Statement .icsUpd := ⟨rfl, rfl⟩
theorem RoundTrip.icsPut : RoundTrip.Statement .icsPut := ⟨rfl, rfl⟩
theorem RoundTrip.rc4Ksa : RoundTrip.Statement .rc4Ksa := ⟨rfl, rfl⟩
theorem RoundTrip.rc4Xor : RoundTrip.Statement .rc4Xor := ⟨rfl, rfl⟩
theorem RoundTrip.bsel : RoundTrip.Statement .bsel := ⟨rfl, rfl⟩
theorem RoundTrip.wepDec : RoundTrip.Statement .wepDec := ⟨rfl, rfl⟩
theorem RoundTrip.wpaDec : RoundTrip.Statement .wpaDec := ⟨rfl, rfl⟩
theorem RoundTrip.tkipDec : RoundTrip.Statement .tkipDec := ⟨rfl, rfl⟩
theorem RoundTrip.ccmpDec : RoundTrip.Statement .ccmpDec := ⟨rfl, rfl⟩

end Sys2Proof.Laws
end

