-- ==== Sys2Proof/Machine/Program.lean ====
section
/-! DEFINITION. The notation for host programs (30_encoding.md R65 to R67): a program is a list of bus transactions, and each
pseudo-instruction is the list it expands to. -/

namespace Sys2Proof.Machine

/-- `wr off, value` (R65). -/
def wrAt (off : Nat) (v : Word) : Event := .write 32 off v

/-- `wr NAME, value` (R65). -/
def wr (r : Reg) (v : Word) : Event := wrAt (regOffset r) v

/-- `rd off` (R65). -/
def rdAt (off : Nat) : Event := .read 32 off

/-- `rd NAME` (R65). -/
def rd (r : Reg) : Event := rdAt (regOffset r)

/-- `cmd MNEMONIC` (R65): the word of the command written to `CMD`. -/
def cmd (i : Instr) : Event := wr .cmd (encode i)

/-- A byte list as bus words, padded with zero bytes to a multiple of 4 (R67). -/
def wordsOf : List Byte → List Word
  | [] => []
  | [b0] => [le32 b0 0#8 0#8 0#8]
  | [b0, b1] => [le32 b0 b1 0#8 0#8]
  | [b0, b1, b2] => [le32 b0 b1 b2 0#8]
  | b0 :: b1 :: b2 :: b3 :: bs => le32 b0 b1 b2 b3 :: wordsOf bs

/-- Consecutive word writes from offset `off` on. -/
def wrWords (off : Nat) : List Word → List Event
  | [] => []
  | w :: ws => wrAt off w :: wrWords (off + 4) ws

/-- `ldm a, b0 b1 ...` (R67), `a` a multiple of 4. -/
def ldm (a : Nat) (bytes : List Byte) : List Event := wrWords (0x10000 + a) (wordsOf bytes)

/-- `ldk b0 ... b(n-1)` (R67). -/
def ldk (bytes : List Byte) : List Event :=
  wrWords 0x100 (wordsOf bytes) ++ [wr .klen (BitVec.ofNat 32 bytes.length)]

/-- `ldptk b0 ... b63` (R67). -/
def ldptk (bytes : Vector Byte 64) : List Event := wrWords 0x200 (wordsOf bytes.toList)

/-- `lda An, o0:o1:o2:o3:o4:o5` (R67). -/
def lda (n : AddrReg) (a : Addr) : List Event := [wr (.addrLo n) (addrLoWord a), wr (.addrHi n) (addrHiWord a)]

/-- `crc32 s, n` (R67). -/
def pseudoCrc32 (s n : Word) : List Event := [wr .src s, wr .len n, cmd .crcInit, cmd .crcUpd]

/-- `inet s, n` (R67). -/
def pseudoInet (s n : Word) : List Event := [wr .src s, wr .len n, cmd .icsInit, cmd .icsUpd]

/-- `rc4 s, d, n` (R67). -/
def pseudoRc4 (s d n : Word) : List Event := [wr .src s, wr .dst d, wr .len n, cmd .rc4Ksa, cmd .rc4Xor]

end Sys2Proof.Machine
end

