-- ==== Sys2Proof/Tests/Slice0.lean ====
section
/-! SUPPORT. Tests. The expected values are those of 95_test_vectors.md (V1 to V69) and of the rules' own examples, never the
model's answers. After the tests come the witnesses: one named theorem for each statement with hypotheses, showing states and
operands that meet them. -/

namespace Sys2Proof.Tests

set_option Elab.async false

open Sys2Proof Sys2Proof.Machine

/-! ### Well-formedness and decoding -/

/-- A word with a non-zero `ZERO` field (V65) and one with an unused opcode (V64) are refused. -/
theorem test_wordWf_refuses : wordWf 0x00000143#32 = false ∧ wordWf 0x00000002#32 = false ∧ wordWf 0x00000043#32 = true := by
  decide

/-- A `MEM_SIZE` that is no multiple of 4, too small or too large is refused (R5); the ends of the range are legal. -/
theorem test_configWf_refuses :
    Config.wf { Config.default with memSize := 66 } = false ∧ Config.wf { Config.default with memSize := 60 } = false ∧
    Config.wf { Config.default with memSize := 2 ^ 31 + 4 } = false ∧ Config.wf { Config.default with memSize := 64 } = true ∧
    Config.wf { Config.default with memSize := 2 ^ 31 } = true := by
  decide

/-- The system, CRC-32, Internet checksum and RC4 words, `ZERO` above `OPCODE`, bit by bit (30_encoding.md R60, R61). -/
theorem test_decode_units :
    decode 0b000000000000000000000000_00000000#32 = .ok .nop ∧ decode 0b000000000000000000000000_00000001#32 = .ok .srst ∧
    decode 0b000000000000000000000000_00010000#32 = .ok .crcInit ∧ decode 0b000000000000000000000000_00010001#32 = .ok .crcUpd ∧
    decode 0b000000000000000000000000_00010010#32 = .ok .crcPut ∧ decode 0b000000000000000000000000_00100000#32 = .ok .icsInit ∧
    decode 0b000000000000000000000000_00100001#32 = .ok .icsUpd ∧ decode 0b000000000000000000000000_00100010#32 = .ok .icsPut ∧
    decode 0b000000000000000000000000_00110000#32 = .ok .rc4Ksa ∧ decode 0b000000000000000000000000_00110001#32 = .ok .rc4Xor := by
  decide

/-- The pipeline words, bit by bit. -/
theorem test_decode_pipeline :
    decode 0b000000000000000000000000_01000000#32 = .ok .bsel ∧ decode 0b000000000000000000000000_01000001#32 = .ok .wepDec ∧
    decode 0b000000000000000000000000_01000010#32 = .ok .wpaDec ∧ decode 0b000000000000000000000000_01000011#32 = .ok .tkipDec ∧
    decode 0b000000000000000000000000_01000100#32 = .ok .ccmpDec := by
  decide

/-- The illegal words of V64 to V66 are refused by name. -/
theorem test_decode_refuses :
    decode 0x00000002#32 = .error (.unusedOpcode 0x02#8) ∧ decode 0x00000143#32 = .error (.zeroField 0x000001#24) ∧
    decode 0xFFFFFFFF#32 = .error (.zeroField 0xFFFFFF#24) := by
  decide

/-- The host's two views: the decoder on a table word, and the step that runs it first after reset. -/
theorem test_withFetchWord :
    decodeTableWord 32 0x10 = some .crcInit ∧ decodeTableWord 8 0x44 = some .ccmpDec ∧ decodeTableWord 32 0x102 = none ∧
    step (State.reset.withFetchWord 32 0x20)
      = .next { State.reset with reply := some (.write .okay), draws := 1 } := by
  exact ⟨by decide, by decide, by decide, rfl⟩

/-! ### The units' functions -/

/-- `crc_step(0xFFFFFFFF, 0x31)`, first shift and result (40_crc32.md section 4). -/
theorem test_crcStep :
    crcShift 0xFFFFFFCE#32 = 0x7FFFFFE7#32 ∧ crcStep 0xFFFFFFFF#32 0x31#8 = 0x7C231048#32 := by
  decide

/-- V4, V5, V8: `a`, `abc`, `123456789`. -/
theorem test_crc32 :
    crc32 [0x61#8] = 0xE8B7BE43#32 ∧ crc32 [0x61#8, 0x62#8, 0x63#8] = 0x352441C2#32 ∧
    crc32 [0x31#8, 0x32#8, 0x33#8, 0x34#8, 0x35#8, 0x36#8, 0x37#8, 0x38#8, 0x39#8] = 0xCBF43926#32 := by
  decide +kernel

/-- The corner values of 41_inet_checksum.md R85. -/
theorem test_ocAdd :
    ocAdd 0xFFFF#16 0xFFFF#16 = 0xFFFF#16 ∧ ocAdd 0xFFFF#16 0x0001#16 = 0x0001#16 ∧
    ocAdd 0x8000#16 0x8000#16 = 0x0001#16 ∧ ocAdd 0x0000#16 0xFFFF#16 = 0xFFFF#16 := by
  decide

/-- The RFC 1071 example of 41_inet_checksum.md R83, and an odd length in two odd pieces (V12g: `01 02 03`). -/
theorem test_icsUpd :
    icsUpd 0#16 false [0x00#8, 0x01#8, 0xF2#8, 0x03#8, 0xF4#8, 0xF5#8, 0xF6#8, 0xF7#8] = (0xDDF2#16, false) ∧
    icsUpd 0x0100#16 true [0x02#8, 0x03#8] = (0x0402#16, true) := by
  decide +kernel

/-- The first four steps of the schedule of "Key" give `j = 75, 177, 44, 122` (42_rc4.md R91). -/
theorem test_rc4Ksa_steps :
    (List.range 4).map (fun n =>
      ((List.range (n + 1)).foldl (rc4KsaStep [0x4B#8, 0x65#8, 0x79#8]) (Rc4.identity, 0#8)).2)
      = [75#8, 177#8, 44#8, 122#8] := by
  decide +kernel

/-- V24: the keystream of the identity permutation (70_reset_and_hazards.md R185). -/
theorem test_rc4_identity_keystream :
    (rc4Xor Rc4.reset (List.replicate 8 0#8)).1
      = [0x02#8, 0x05#8, 0x07#8, 0x0D#8, 0x0D#8, 0x17#8, 0x1F#8, 0x28#8] := by
  decide +kernel

/-- The field check values of 45_aes128.md R130. -/
theorem test_field :
    xtime 0x57#8 = 0xAE#8 ∧ xtime 0xAE#8 = 0x47#8 ∧ gmul 0x57#8 0x13#8 = 0xFE#8 ∧ gmul 0x57#8 0x83#8 = 0xC1#8 := by
  decide

/-- The FIPS-197 example of 45_aes128.md R134 (V50). -/
theorem test_aesEnc :
    aesEnc
      #v[0x00#8, 0x01#8, 0x02#8, 0x03#8, 0x04#8, 0x05#8, 0x06#8, 0x07#8,
        0x08#8, 0x09#8, 0x0A#8, 0x0B#8, 0x0C#8, 0x0D#8, 0x0E#8, 0x0F#8]
      #v[0x00#8, 0x11#8, 0x22#8, 0x33#8, 0x44#8, 0x55#8, 0x66#8, 0x77#8,
        0x88#8, 0x99#8, 0xAA#8, 0xBB#8, 0xCC#8, 0xDD#8, 0xEE#8, 0xFF#8]
      = #v[0x69#8, 0xC4#8, 0xE0#8, 0xD8#8, 0x6A#8, 0x7B#8, 0x04#8, 0x30#8,
        0xD8#8, 0xCD#8, 0xB7#8, 0x80#8, 0x70#8, 0xB4#8, 0xC5#8, 0x5A#8] := by
  decide +kernel

/-- Five entries of the table of 46_tkip.md R142, first and third rows, and the S-box the formula rests on. -/
theorem test_tkipSbox :
    tkipSboxByte 0x00#8 = 0xC6A5#16 ∧ tkipSboxByte 0x07#8 = 0x9154#16 ∧ tkipSboxByte 0x08#8 = 0x6050#16 ∧
    tkipSboxByte 0x10#8 = 0x8F45#16 ∧ tkipSboxByte 0x27#8 = 0x834F#16 ∧ sbox 0x53#8 = 0xED#8 := by
  decide

/-- The per-packet key of V55b. -/
def tkipExampleKey : List Byte := [0x00#8, 0x20#8, 0x01#8, 0x90#8, 0xFF#8, 0xDC#8, 0x31#8, 0x43#8,
  0x89#8, 0xA9#8, 0xD9#8, 0xD0#8, 0x74#8, 0xFD#8, 0x20#8, 0xAA#8]

/-- V55b: both phases of the key mixing, and `P1K` of V55d. -/
theorem test_tkip_mixing :
    tkipPhase1 tkipExampleTk tkipExampleTa 0#32
      = { k0 := 0x3DD2#16, k1 := 0x016E#16, k2 := 0x76F4#16, k3 := 0x8697#16, k4 := 0xB2E8#16 } ∧
    tkipPhase2 tkipExampleTk (tkipPhase1 tkipExampleTk tkipExampleTa 0#32) 0x0001#16 = tkipExampleKey ∧
    tkipPhase1 tkipExampleTk tkipExampleTa 0x12345678#32
      = { k0 := 0x4767#16, k1 := 0x96CC#16, k2 := 0x621A#16, k3 := 0x6A0D#16, k4 := 0xA993#16 } := by
  decide +kernel

/-- The RC4 key of V31: the IV `01 02 03`, then the password `0A 0B 0C 0D 0E`. -/
def wepExampleKey : List Byte := [0x01#8, 0x02#8, 0x03#8, 0x0A#8, 0x0B#8, 0x0C#8, 0x0D#8, 0x0E#8]

/-- The keystream that 43_wep.md R103 lists for that key, and `i`, `j` after it. -/
theorem test_wep_keystream :
    (List.range 6).map (rc4StreamByte (rc4Ksa wepExampleKey)) = [0x81#8, 0x1A#8, 0xF5#8, 0xCE#8, 0xDD#8, 0xB5#8] ∧
    (rc4Advance 6 (rc4Ksa wepExampleKey)).i = 6#8 ∧ (rc4Advance 6 (rc4Ksa wepExampleKey)).j = 58#8 := by
  decide +kernel

/-- The first keystream bytes that 46_tkip.md R145 lists for the key of V55b. -/
theorem test_tkip_keystream :
    (List.range 8).map (rc4StreamByte (rc4Ksa tkipExampleKey))
      = [0xCC#8, 0x22#8, 0xDF#8, 0x9F#8, 0x44#8, 0xE7#8, 0xDC#8, 0xD9#8] := by
  decide +kernel

/-! ### Single commands -/

/-- The state an outcome answers; every outcome of this machine answers one. -/
def nextOf (o : Result) : State :=
  match o with
  | .next t => t
  | .fault _ => State.reset
  | .refused _ => State.reset

/-- After reset with `body` written from index 0 and the operands set to process it. -/
def frame (body : List Byte) (dst : Word) : State :=
  { State.reset.memWrite 0 body with len := BitVec.ofNat 32 body.length, dst := dst }

/-- The nine bytes of V8. -/
def checkFrame : State := frame [0x31#8, 0x32#8, 0x33#8, 0x34#8, 0x35#8, 0x36#8, 0x37#8, 0x38#8, 0x39#8] 9#32

/-- `NOP` clears the code (V66); `SRST` keeps `MEM`, clears `LEN`, sets `CRC_ACC` (47_system.md R151). -/
theorem test_system :
    exec .nop { State.reset with status := .errOp } = .next State.reset ∧
    (nextOf (exec .srst checkFrame)).mem = checkFrame.mem ∧ (nextOf (exec .srst checkFrame)).len = 0#32 ∧
    (nextOf (exec .srst checkFrame)).crcAcc = 0xFFFFFFFF#32 := by
  exact ⟨rfl, rfl, rfl, rfl⟩

/-- R72 to R74 with their example: `CRC_ACC`, then `26 39 F4 CB` at the unaligned index 9. -/
theorem test_crc_commands :
    (nextOf (exec .crcInit { checkFrame with crcAcc := 5#32 })).crcAcc = 0xFFFFFFFF#32 ∧
    (nextOf (exec .crcUpd checkFrame)).crcAcc = 0x340BC6D9#32 ∧
    (nextOf (exec .crcPut { checkFrame with crcAcc := 0x340BC6D9#32 })).memRead 8 5
      = [0x39#8, 0x26#8, 0x39#8, 0xF4#8, 0xCB#8] := by
  decide +kernel

/-- The range checks at their ends: they do not wrap (20_memory.md R48). -/
theorem test_range_checks :
    (nextOf (exec .crcUpd { State.reset with src := 65536#32 })).status = .ok ∧
    (nextOf (exec .crcUpd { State.reset with src := 0xFFFFFFFF#32, len := 2#32 })).status = .errRange ∧
    (nextOf (exec .crcPut { State.reset with dst := 65532#32 })).status = .ok ∧
    (nextOf (exec .crcPut { State.reset with dst := 65533#32 })).status = .errRange ∧
    (nextOf (exec .icsPut { State.reset with dst := 65534#32 })).status = .ok ∧
    (nextOf (exec .icsPut { State.reset with dst := 65535#32 })).status = .errRange := by
  decide +kernel

/-- `ICS_INIT`, `ICS_UPD` over an odd range and `ICS_PUT` of the RFC 1071 sum: big-endian (R82 to R84). -/
theorem test_ics_commands :
    (nextOf (exec .icsInit { State.reset with icsSum := 9#16, icsPhase := true })).icsPhase = false ∧
    (nextOf (exec .icsUpd (frame [0x01#8, 0x02#8, 0x03#8] 0#32))).icsSum = 0x0402#16 ∧
    (nextOf (exec .icsUpd (frame [0x01#8, 0x02#8, 0x03#8] 0#32))).icsPhase = true ∧
    (nextOf (exec .icsPut { State.reset with icsSum := 0xDDF2#16 })).memRead 0 2 = [0x22#8, 0x0D#8] := by
  decide +kernel

/-- `RC4_KSA` refuses a `KLEN` of 0 and of 257; `RC4_XOR` in place with the identity keystream (V24). -/
theorem test_rc4_commands :
    (nextOf (exec .rc4Ksa State.reset)).status = .errKlen ∧
    (nextOf (exec .rc4Ksa { State.reset with klen := 257#32 })).status = .errKlen ∧
    (nextOf (exec .rc4Xor (frame [0x00#8, 0xFF#8, 0x00#8] 0#32))).memRead 0 3 = [0x02#8, 0xFA#8, 0x07#8] := by
  decide +kernel

/-- V26 to V28: to-DS alone selects `A1`, from-DS alone `A2`, both `A3`. -/
theorem test_bsel :
    let s := { State.reset with a1 := #v[1#8, 0#8, 0#8, 0#8, 0#8, 1#8], a2 := #v[2#8, 0#8, 0#8, 0#8, 0#8, 2#8],
                                a3 := #v[3#8, 0#8, 0#8, 0#8, 0#8, 3#8] }
    (nextOf (exec .bsel { s with fc := 0x0108#16 })).bssid = s.a1 ∧
    (nextOf (exec .bsel { s with fc := 0x0208#16 })).bssid = s.a2 ∧
    (nextOf (exec .bsel { s with fc := 0x0308#16 })).bssid = s.a3 ∧
    (nextOf (exec .bsel { s with fc := 0x0008#16 })).bssid = s.a3 := by
  exact ⟨rfl, rfl, rfl, rfl⟩

/-- R162: `WEP_DEC` with a short `LEN` reports it whatever `KLEN` is, and `ERR_KLEN` comes before `ERR_RANGE`. -/
theorem test_check_order :
    (nextOf (exec .wepDec { State.reset with len := 3#32, klen := 300#32 })).status = .errLen ∧
    (nextOf (exec .wepDec { State.reset with len := 8#32, klen := 300#32, src := 0xFFFFFFFF#32 })).status = .errKlen ∧
    (nextOf (exec .tkipDec { State.reset with len := 11#32 })).status = .errLen ∧
    (nextOf (exec .ccmpDec { State.reset with len := 15#32, olen := 7#32 })).olen = 0#32 ∧
    (nextOf (exec .ccmpDec { State.reset with len := 65552#32 })).status = .errLen ∧
    (nextOf (exec .wpaDec { State.reset with len := 16#32, src := 65521#32, cipher := .ccmp })).status = .errRange := by
  decide +kernel

/-! ### Whole frames -/

/-- V31: a WEP body with the key-ID octet `id` (0 in V31) and its byte 4 (`E9` in V31, `E8` in V32). -/
def wepFrame (id b : Byte) : State :=
  { (writeReg (writeReg (frame [0x01#8, 0x02#8, 0x03#8, id, b, 0x73#8, 0x59#8, 0xE4#8, 0x4E#8, 0x6D#8] 0x20#32)
      (.key 0) 0x0D0C0B0A#32) (.key 1) 0x0000000E#32) with klen := 5#32, fc := 0x4108#16 }

/-- A TKIP body under the key of V55b: header of V55, the data `68 69` and its ICV `AC 2A 93 D8` under the keystream of V55;
`b` is byte 8 (`A4`). -/
def tkipFrame (b : Byte) : State :=
  { frame [0x00#8, 0x20#8, 0x01#8, 0x20#8, 0x00#8, 0x00#8, 0x00#8, 0x00#8,
      b, 0x4B#8, 0x73#8, 0xB5#8, 0xD7#8, 0x3F#8] 0x40#32 with
    ptk := Vector.ofFn fun k => if 32 ≤ k.val then BitVec.ofNat 8 (k.val - 32) else 0#8
    a2 := tkipExampleTa
    fc := 0x4208#16 }

theorem wepKey_wepFrame : (wepFrame 0x00#8 0xE9#8).bytes 0 3 ++ (wepFrame 0x00#8 0xE9#8).password = wepExampleKey ∧
    (wepFrame 0x00#8 0xE8#8).bytes 0 3 ++ (wepFrame 0x00#8 0xE8#8).password = wepExampleKey ∧
    (wepFrame 0x40#8 0xE9#8).bytes 0 3 ++ (wepFrame 0x40#8 0xE9#8).password = wepExampleKey := by
  decide +kernel

theorem tkipKey_tkipFrame : tkipKey (tkipFrame 0xA4#8) = tkipExampleKey ∧ tkipKey (tkipFrame 0xA5#8) = tkipExampleKey := by
  decide +kernel

theorem wep_stream :
    rc4StreamByte (rc4Ksa wepExampleKey) 0 = 0x81#8 ∧ rc4StreamByte (rc4Ksa wepExampleKey) 1 = 0x1A#8 ∧
    rc4StreamByte (rc4Ksa wepExampleKey) 2 = 0xF5#8 ∧ rc4StreamByte (rc4Ksa wepExampleKey) 3 = 0xCE#8 ∧
    rc4StreamByte (rc4Ksa wepExampleKey) 4 = 0xDD#8 ∧ rc4StreamByte (rc4Ksa wepExampleKey) 5 = 0xB5#8 := by
  simpa only [List.range_succ, List.range_zero, List.nil_append, List.cons_append, List.map_cons, List.map_nil,
    List.cons.injEq, and_true] using test_wep_keystream.1

theorem tkip_stream :
    rc4StreamByte (rc4Ksa tkipExampleKey) 0 = 0xCC#8 ∧ rc4StreamByte (rc4Ksa tkipExampleKey) 1 = 0x22#8 ∧
    rc4StreamByte (rc4Ksa tkipExampleKey) 2 = 0xDF#8 ∧ rc4StreamByte (rc4Ksa tkipExampleKey) 3 = 0x9F#8 ∧
    rc4StreamByte (rc4Ksa tkipExampleKey) 4 = 0x44#8 ∧ rc4StreamByte (rc4Ksa tkipExampleKey) 5 = 0xE7#8 := by
  have h := test_tkip_keystream
  simp only [List.range_succ, List.range_zero, List.nil_append, List.cons_append, List.map_cons, List.map_nil,
    List.cons.injEq, and_true] at h
  exact ⟨h.1, h.2.1, h.2.2.1, h.2.2.2.1, h.2.2.2.2.1, h.2.2.2.2.2.1⟩

/-- Two encrypted data bytes and four encrypted check bytes, opened under a keystream. -/
theorem open_two_bytes (s : State) (h : Nat) (key : List Byte) (hl : s.len.toNat = h + 6) :
    openPlain s h key = [s.byteAt (s.src.toNat + h + 0) ^^^ rc4StreamByte (rc4Ksa key) 0,
      s.byteAt (s.src.toNat + h + 1) ^^^ rc4StreamByte (rc4Ksa key) 1] ∧
    openIcv s h key = [s.byteAt (s.src.toNat + h + 2) ^^^ rc4StreamByte (rc4Ksa key) 2,
      s.byteAt (s.src.toNat + h + 3) ^^^ rc4StreamByte (rc4Ksa key) 3,
      s.byteAt (s.src.toNat + h + 4) ^^^ rc4StreamByte (rc4Ksa key) 4,
      s.byteAt (s.src.toNat + h + 5) ^^^ rc4StreamByte (rc4Ksa key) 5] := by
  have e : s.len.toNat - h - 4 = 2 := by omega
  exact ⟨by rw [openPlain, e]; rfl, by rw [openIcv, e]; rfl⟩

/-- V31 and V32: the candidate plaintexts `68 69` and `69 69`, the check value `AC 2A 93 D8` in both. -/
theorem test_wep_open :
    openPlain (wepFrame 0x00#8 0xE9#8) 4 wepExampleKey = [0x68#8, 0x69#8] ∧
    openIcv (wepFrame 0x00#8 0xE9#8) 4 wepExampleKey = [0xAC#8, 0x2A#8, 0x93#8, 0xD8#8] ∧
    openPlain (wepFrame 0x00#8 0xE8#8) 4 wepExampleKey = [0x69#8, 0x69#8] ∧
    openIcv (wepFrame 0x00#8 0xE8#8) 4 wepExampleKey = [0xAC#8, 0x2A#8, 0x93#8, 0xD8#8] := by
  obtain ⟨h0, h1, h2, h3, h4, h5⟩ := wep_stream
  rw [(open_two_bytes (wepFrame 0x00#8 0xE9#8) 4 wepExampleKey (by decide +kernel)).1,
    (open_two_bytes (wepFrame 0x00#8 0xE9#8) 4 wepExampleKey (by decide +kernel)).2,
    (open_two_bytes (wepFrame 0x00#8 0xE8#8) 4 wepExampleKey (by decide +kernel)).1,
    (open_two_bytes (wepFrame 0x00#8 0xE8#8) 4 wepExampleKey (by decide +kernel)).2, h0, h1, h2, h3, h4, h5]
  decide +kernel
/-- The TKIP body above: candidate plaintext `68 69`, check value `AC 2A 93 D8`; with byte 8 one higher, `69 69`. -/
theorem test_tkip_open :
    openPlain (tkipFrame 0xA4#8) 8 tkipExampleKey = [0x68#8, 0x69#8] ∧
    openIcv (tkipFrame 0xA4#8) 8 tkipExampleKey = [0xAC#8, 0x2A#8, 0x93#8, 0xD8#8] ∧
    openPlain (tkipFrame 0xA5#8) 8 tkipExampleKey = [0x69#8, 0x69#8] ∧
    openIcv (tkipFrame 0xA5#8) 8 tkipExampleKey = [0xAC#8, 0x2A#8, 0x93#8, 0xD8#8] := by
  obtain ⟨h0, h1, h2, h3, h4, h5⟩ := tkip_stream
  rw [(open_two_bytes (tkipFrame 0xA4#8) 8 tkipExampleKey (by decide +kernel)).1,
    (open_two_bytes (tkipFrame 0xA4#8) 8 tkipExampleKey (by decide +kernel)).2,
    (open_two_bytes (tkipFrame 0xA5#8) 8 tkipExampleKey (by decide +kernel)).1,
    (open_two_bytes (tkipFrame 0xA5#8) 8 tkipExampleKey (by decide +kernel)).2, h0, h1, h2, h3, h4, h5]
  decide +kernel

theorem wepFrame_hdr (id b : Byte) : (wepFrame id b).cfg.wepHdrLen.toNat = 4 := rfl

/-- V31 by `WEP_DEC`. -/
theorem test_wepDec : ∃ t, exec .wepDec (wepFrame 0x00#8 0xE9#8) = .next t ∧ t.status = .ok ∧ t.olen = 2#32 ∧
    t.fc = 0x0108#16 ∧ t.memRead 0x20 2 = [0x68#8, 0x69#8] ∧ crcVal t.crcAcc = 0xD8932AAC#32 := by
  have k : wepKey (wepFrame 0x00#8 0xE9#8) = wepExampleKey := by decide +kernel
  obtain ⟨p, c, -⟩ := test_wep_open
  rcases execWepDec_cases (wepFrame 0x00#8 0xE9#8) with h | h | h | ⟨-, -, -, -, e⟩
  · exact absurd h.1 (by decide +kernel)
  · exact absurd h.2.1 (by decide +kernel)
  · exact absurd h.2.2.1 (by decide +kernel)
  · rw [k, wepFrame_hdr] at e
    rcases rc4CrcOpen_cases wepExampleKey 4 (wepFrame 0x00#8 0xE9#8) (by decide +kernel) with ⟨-, e2⟩ | ⟨m, -⟩
    · rw [p] at e2
      rw [e2] at e
      have e3 : exec .wepDec (wepFrame 0x00#8 0xE9#8) = _ := e
      refine ⟨_, e3, by rfl, by decide +kernel, by decide +kernel, by decide +kernel, ?_⟩
      rw [commitPlaintext_crcAcc, afterOpen_crcAcc, p]
      decide +kernel
    · rw [p, c] at m
      exact absurd (by decide +kernel) m

/-- V32 by `WEP_DEC`: the data changed in one byte. -/
theorem test_wepDec_fail : ∃ t, exec .wepDec (wepFrame 0x00#8 0xE8#8) = .next t ∧ t.status = .fail ∧ t.olen = 0#32 ∧
    t.fc = 0x4108#16 ∧ t.mem = (wepFrame 0x00#8 0xE8#8).mem ∧ t.crcAcc = 0x3E77E412#32 := by
  have k : wepKey (wepFrame 0x00#8 0xE8#8) = wepExampleKey := by decide +kernel
  obtain ⟨-, -, p, c⟩ := test_wep_open
  rcases execWepDec_cases (wepFrame 0x00#8 0xE8#8) with h | h | h | ⟨-, -, -, -, e⟩
  · exact absurd h.1 (by decide +kernel)
  · exact absurd h.2.1 (by decide +kernel)
  · exact absurd h.2.2.1 (by decide +kernel)
  · rw [k, wepFrame_hdr] at e
    rcases rc4CrcOpen_cases wepExampleKey 4 (wepFrame 0x00#8 0xE8#8) (by decide +kernel) with ⟨m, -⟩ | ⟨-, e2⟩
    · rw [p, c] at m
      exact absurd m (by decide +kernel)
    · rw [e2] at e
      have e3 : exec .wepDec (wepFrame 0x00#8 0xE8#8) = _ := e
      refine ⟨_, e3, by rfl, by rfl, by rfl, by rfl, ?_⟩
      rw [State.raisePipeline_crcAcc, afterOpen_crcAcc, p]
      decide +kernel

/-- The TKIP body above by `WPA_DEC` with `CTRL.CIPHER = 0` (the same state as with `TKIP_DEC`). -/
theorem test_tkipDec : ∃ t, exec .wpaDec (tkipFrame 0xA4#8) = .next t ∧ exec .tkipDec (tkipFrame 0xA4#8) = .next t ∧
    t.status = .ok ∧ t.olen = 2#32 ∧ t.fc = 0x0208#16 ∧ t.memRead 0x40 2 = [0x68#8, 0x69#8] := by
  obtain ⟨p, c, -⟩ := test_tkip_open
  rcases tkipDecrypt_cases (tkipFrame 0xA4#8) with h | h | ⟨-, -, -, e⟩
  · exact absurd h.1 (by decide +kernel)
  · exact absurd h.2.1 (by decide +kernel)
  · rw [tkipKey_tkipFrame.1] at e
    rcases rc4CrcOpen_cases tkipExampleKey 8 (tkipFrame 0xA4#8) (by decide +kernel) with ⟨-, e2⟩ | ⟨m, -⟩
    · rw [p] at e2
      rw [e2] at e
      exact ⟨_, congrArg Host.Outcome.next e, congrArg Host.Outcome.next e, rfl, rfl, by decide +kernel, by decide +kernel⟩
    · rw [p, c] at m
      exact absurd (by decide +kernel) m

/-! The CCMP example V40. -/

/-- The temporal key of V40. -/
def ccmpExampleKey : Block := #v[0xC9#8, 0x7C#8, 0x1F#8, 0x67#8, 0xCE#8, 0x37#8, 0x11#8, 0x85#8,
  0x51#8, 0x4A#8, 0x8A#8, 0x19#8, 0xF2#8, 0xBD#8, 0xD5#8, 0x2F#8]

/-- The nonce of V40. -/
def ccmpExampleNonce : List Byte := [0x00#8, 0x50#8, 0x30#8, 0xF1#8, 0x84#8, 0x44#8, 0x08#8,
  0xB5#8, 0x03#8, 0x97#8, 0x76#8, 0xE7#8, 0x0C#8]

/-- The AAD of V40. -/
def ccmpExampleAad : List Byte := [0x08#8, 0x40#8, 0x0F#8, 0xD2#8, 0xE1#8, 0x28#8, 0xA5#8, 0x7C#8, 0x50#8, 0x30#8, 0xF1#8,
  0x84#8, 0x44#8, 0x08#8, 0xAB#8, 0xAE#8, 0xA5#8, 0xB8#8, 0xFC#8, 0xBA#8, 0x00#8, 0x00#8]

/-- The plaintext of V40. -/
def ccmpExamplePlain : List Byte := [0xF8#8, 0xBA#8, 0x1A#8, 0x55#8, 0xD0#8, 0x2F#8, 0x85#8, 0xAE#8, 0x96#8, 0x7B#8,
  0xB6#8, 0x2F#8, 0xB6#8, 0xCD#8, 0xA8#8, 0xEB#8, 0x7E#8, 0x78#8, 0xA0#8, 0x50#8]

/-- The frame of V40 with its last byte (`23`) as an argument. -/
def ccmpFrame (b : Byte) : State :=
  { frame [0x0C#8, 0xE7#8, 0x00#8, 0x20#8, 0x76#8, 0x97#8, 0x03#8, 0xB5#8,
      0xF3#8, 0xD0#8, 0xA2#8, 0xFE#8, 0x9A#8, 0x3D#8, 0xBF#8, 0x23#8, 0x42#8, 0xA6#8, 0x43#8, 0xE4#8,
      0x32#8, 0x46#8, 0xE8#8, 0x0C#8, 0x3C#8, 0x04#8, 0xD0#8, 0x19#8,
      0x78#8, 0x45#8, 0xCE#8, 0x0B#8, 0x16#8, 0xF9#8, 0x76#8, b] 0x400#32 with
    ptk := Vector.ofFn fun k => if h : 32 ≤ k.val ∧ k.val < 48 then ccmpExampleKey[k.val - 32] else 0#8
    a1 := #v[0x0F#8, 0xD2#8, 0xE1#8, 0x28#8, 0xA5#8, 0x7C#8]
    a2 := #v[0x50#8, 0x30#8, 0xF1#8, 0x84#8, 0x44#8, 0x08#8]
    a3 := #v[0xAB#8, 0xAE#8, 0xA5#8, 0xB8#8, 0xFC#8, 0xBA#8]
    fc := 0x4808#16, sc := 0x3380#16 }

/-- V40: key, nonce and AAD of the frame. -/
theorem test_ccmp_inputs (b : Byte) (h : b = 0x23#8 ∨ b = 0x22#8) :
    (ccmpFrame b).ccmpTk = ccmpExampleKey ∧ ccmpNonce (ccmpFrame b) = ccmpExampleNonce ∧
    ccmpAad (ccmpFrame b) = ccmpExampleAad := by
  rcases h with rfl | rfl <;> decide +kernel

/-- V40: `S_1 ++ S_2` and the first half of `S_0`. -/
theorem test_ccmp_keystream :
    ccmKeystream ccmpExampleKey ccmpExampleNonce 20
      = [0x0B#8, 0x6A#8, 0xB8#8, 0xAB#8, 0x4A#8, 0x12#8, 0x3A#8, 0x8D#8,
        0xD4#8, 0xDD#8, 0xF5#8, 0xCB#8, 0x84#8, 0x8B#8, 0x40#8, 0xE7#8,
        0x42#8, 0x7C#8, 0x70#8, 0x49#8, 0xBF#8, 0x6B#8, 0x20#8, 0x7E#8,
        0x86#8, 0x7B#8, 0xF7#8, 0x6E#8, 0xB3#8, 0x39#8, 0xC7#8, 0x28#8] ∧
    (ccmKeyBlock ccmpExampleKey ccmpExampleNonce 0).toList.take 8
      = [0x84#8, 0x94#8, 0x84#8, 0xB6#8, 0x07#8, 0xC9#8, 0xED#8, 0x27#8] := by
  decide +kernel

/-- V40: the MIC `T`. -/
theorem test_ccmMac : ccmMac ccmpExampleKey ccmpExampleNonce ccmpExampleAad ccmpExamplePlain
    = [0xFC#8, 0xD1#8, 0x4A#8, 0xBD#8, 0x11#8, 0x30#8, 0x9B#8, 0x04#8] := by
  decide +kernel

/-- V40 and V40l: the plaintext and the computed MIC in both, the received MIC equal in V40 alone. -/
theorem test_ccmp_open (b : Byte) (h : b = 0x23#8 ∨ b = 0x22#8) :
    ccmpPlain (ccmpFrame b) = ccmpExamplePlain ∧
    (ccmpComputed (ccmpFrame b) = ccmpReceived (ccmpFrame b) ↔ b = 0x23#8) := by
  obtain ⟨k, n, a⟩ := test_ccmp_inputs b h
  have hl : (ccmpFrame b).len.toNat - 16 = 20 := by rcases h with rfl | rfl <;> decide +kernel
  have p : ccmpPlain (ccmpFrame b) = ccmpExamplePlain := by
    rw [ccmpPlain, k, n, hl, test_ccmp_keystream.1]
    rcases h with rfl | rfl <;> decide +kernel
  refine ⟨p, ?_⟩
  rw [ccmpComputed, ccmpReceived, p, k, n, a, test_ccmMac, test_ccmp_keystream.2, hl]
  rcases h with rfl | rfl <;> decide +kernel

/-- V40 by `CCMP_DEC` and (V40a) by `WPA_DEC` with `CTRL.CIPHER = 1`. -/
theorem test_ccmpDec : ∃ t, exec .ccmpDec (ccmpFrame 0x23#8) = .next t ∧ t.status = .ok ∧ t.olen = 20#32 ∧
    t.fc = 0x0808#16 ∧ t.memRead 0x400 20 = ccmpExamplePlain := by
  obtain ⟨p, m⟩ := test_ccmp_open 0x23#8 (.inl rfl)
  rcases ccmpDecrypt_cases (ccmpFrame 0x23#8) with h | h | ⟨-, -, e⟩ | ⟨-, c, -⟩
  · exact absurd h.1 (by decide +kernel)
  · exact absurd h.2.2.1 (by decide +kernel)
  · rw [p] at e
    exact ⟨_, congrArg Host.Outcome.next e, rfl, rfl, by decide +kernel, by decide +kernel⟩
  · exact absurd (m.mpr rfl) c

/-- V40l: the last MIC byte changed. -/
theorem test_ccmpDec_fail : exec .ccmpDec (ccmpFrame 0x22#8)
    = .next { ccmpFrame 0x22#8 with status := .fail, olen := 0#32 } := by
  obtain ⟨p, m⟩ := test_ccmp_open 0x22#8 (.inr rfl)
  rcases ccmpDecrypt_cases (ccmpFrame 0x22#8) with h | h | ⟨-, c, -⟩ | ⟨-, -, e⟩
  · exact absurd h.1 (by decide +kernel)
  · exact absurd h.2.2.1 (by decide +kernel)
  · exact absurd (m.mp c) (by decide)
  · exact congrArg Host.Outcome.next e

/-! ### Witnesses: states and operands that meet the hypotheses of the statements, clause by clause -/

/-- `s` with one offered event. -/
def offer (s : State) (e : Event) : State := { s with inbox := [e] }

theorem witness_HardResetLeavesTheStatedValues :
    (offer checkFrame .hardReset).inbox = .hardReset :: [] ∧
    ({ State.reset with src := 65535#32, len := 1#32 } : State).crcAcc = State.reset.crcAcc ∧
    ({ State.reset with src := 65535#32, len := 1#32 } : State).src.toNat + 1 = State.reset.cfg.memSize := by
  exact ⟨rfl, rfl, rfl⟩

theorem checkFrame_inv (e : Event) : (offer checkFrame e).Inv :=
  ⟨by show Memory.wf checkFrame.mem; decide, by show ∀ c ∈ checkFrame.mem, c.1 < 65536; decide, List.Perm.refl _,
    by show Config.default.wf = true; decide⟩

theorem witness_StepKeepsStateWellKept :
    (offer checkFrame (.write 32 0x0C 0x12#32)).Inv ∧ (∃ t, step (offer checkFrame (.write 32 0x0C 0x12#32)) = .next t) ∧
    (∃ t, step (offer checkFrame (.write 32 0x1FFFC 7#32)) = .next t) ∧
    ∃ t, step (offer checkFrame .hardReset) = .next t :=
  ⟨checkFrame_inv _, ⟨_, rfl⟩, ⟨_, rfl⟩, ⟨_, rfl⟩⟩

theorem witness_StepRunsTheDecodedCommand :
    decode 0x10#32 = .ok .crcInit ∧ (∃ t, exec .crcInit { offer State.reset (.write 32 0x0C 0x10#32) with inbox := [] } = .next t) ∧
    decodeTableWord 32 0x41 = some .wepDec ∧ (∃ t, exec .wepDec State.reset = .next t) ∧
    (offer State.reset (.read 32 0x0C)).inbox = .read 32 0x0C :: [] :=
  ⟨by decide, ⟨_, rfl⟩, by decide, ⟨_, rfl⟩, rfl⟩

/-- An unused opcode (V64), the unused opcode next to the last command, and a non-zero `ZERO` field (V65). -/
theorem witness_UnlistedWordReportsErrOp :
    (offer State.reset (.write 32 0x0C 2#32)).inbox = .write 32 0x0C 2#32 :: [] ∧
    (∀ i, ((2#32, i) : Word × Instr) ∉ commandTable) ∧ (∀ i, ((0x45#32, i) : Word × Instr) ∉ commandTable) ∧
    ∀ i, ((0x143#32, i) : Word × Instr) ∉ commandTable := by
  refine ⟨rfl, ?_, ?_, ?_⟩ <;> intro i <;> cases i <;> decide

theorem witness_StepServesOneEventInOrder :
    step State.reset = .next State.reset ∧ State.reset.inbox = [] ∧
    (∃ t, step (offer State.reset (.read 32 0)) = .next t) ∧ (offer State.reset (.read 32 0)).inbox ≠ [] :=
  ⟨rfl, rfl, ⟨_, rfl⟩, by decide⟩

theorem witness_DecodesExactlyTheListedWords : ∀ i : Instr, i.wf = true := by
  intro i; cases i <;> rfl

/-- The ends of the unmapped ranges, and their mapped neighbours. -/
theorem witness_UnmappedAccessesAnswerErr :
    State.reset.cfg.wf = true ∧
    (∀ off ∈ [0x3C, 0x4C, 0x70, 0xFC, 0x240, 0xFFFC, 0x20000, 0x02, 0x1FFFD], accessReg State.reset 32 off = none) ∧
    accessReg State.reset 16 0x10 = none ∧
    (∀ off ∈ [0x00, 0x38, 0x40, 0x48, 0x50, 0x6C, 0x100, 0x1FC, 0x200, 0x23C, 0x10000, 0x1FFFC],
      accessReg State.reset 32 off ≠ none) ∧
    accessReg (offer State.reset (.read 32 0x28)) 32 0x28 = some .crcVal ∧
    (offer State.reset (.read 32 0x28)).inbox = .read 32 0x28 :: [] ∧
    accessReg (offer State.reset (.write 32 0x0C 7#32)) 32 0x0C = some .cmd := by
  decide

theorem witness_RegisterMapIsOneToOne :
    regAt 65536 0x1FFFC = some (.mem 16383) ∧ regAt 65536 0x20000 = none ∧ regAt 65536 0x6C = some (.addrHi .a4) := by
  decide

/-- The first and last words of the windows. -/
theorem witness_WindowsAreLittleEndianByLane :
    (offer State.reset (.read 32 (0x100 + 4 * 63))).inbox = .read 32 (0x100 + 4 * 63) :: [] ∧
    (offer State.reset (.write 32 (0x200 + 4 * 15) 7#32)).inbox = .write 32 (0x200 + 4 * 15) 7#32 :: [] ∧
    4 * 16383 + 4 ≤ State.reset.cfg.memSize ∧ 4 * 0 + 4 ≤ State.reset.cfg.memSize ∧
    (offer State.reset (.write 32 (0x10000 + 4 * 16383) 7#32)).inbox = .write 32 (0x10000 + 4 * 16383) 7#32 :: [] :=
  ⟨rfl, rfl, by decide, by decide, rfl⟩

theorem witness_RegisterWritesStoreUsedBits :
    accessReg State.reset 32 0x04 = some .ctrl ∧ Reg.ctrl ≠ .cmd ∧
    accessReg State.reset 32 0x1FFFC = some (.mem 16383) ∧ Reg.crcVal ≠ .crcAcc ∧ derivedFrom .crcVal ≠ some .icsAcc := by
  decide

theorem witness_ReadsHaveNoSideEffect :
    ∃ t, step (offer checkFrame (.read 32 0x10000)) = .next t ∧ t.reply = some (.read .okay 0x34333231#32) :=
  ⟨_, rfl, by decide +kernel⟩

theorem witness_NopAndInitCommandsComplete :
    (∃ t, exec .crcInit checkFrame = .next t) ∧ ∃ t, exec .icsInit checkFrame = .next t := ⟨⟨_, rfl⟩, ⟨_, rfl⟩⟩

theorem witness_CrcUpdAccumulatesTheSourceRange :
    ({ State.reset with src := 65535#32, len := 1#32 } : State).src.toNat + 1 ≤ State.reset.cfg.memSize ∧
    State.reset.cfg.memSize < ({ State.reset with src := 65535#32, len := 2#32 } : State).src.toNat + 2 := by
  decide

/-- Every byte of a `frame` has been written. -/
theorem frame_written (body : List Byte) (dst : Word) (h : body.length < 2 ^ 32) : sourceWritten (frame body dst) := by
  intro a _ h2
  have h3 : a < body.length := by
    have : (frame body dst).src.toNat + (frame body dst).len.toNat = body.length := by
      simpa [frame, State.reset, State.resetWith, State.memWrite] using h
    omega
  simp [frame, State.memWrite, Memory.lookup_storeRange, h3]

theorem checkFrame_written : sourceWritten checkFrame := frame_written _ _ (by decide)

theorem witness_CrcUpdInPiecesIsCrcUpdOfTheWhole :
    checkFrame.cfg.wf = true ∧ checkFrame.src.toNat + (4 + 5) ≤ checkFrame.cfg.memSize ∧
    sourceWritten { checkFrame with len := BitVec.ofNat 32 (4 + 5) } :=
  ⟨by decide, by decide, checkFrame_written⟩

theorem witness_CrcPutStoresTheTrailer :
    ({ State.reset with dst := 65532#32 } : State).dst.toNat + 4 ≤ State.reset.cfg.memSize ∧
    State.reset.cfg.memSize < ({ State.reset with dst := 65533#32 } : State).dst.toNat + 4 := by
  decide

theorem witness_StoredTrailerVerifies :
    checkFrame.cfg.wf = true ∧ sourceWritten checkFrame ∧
    checkFrame.dst.toNat = checkFrame.src.toNat + checkFrame.len.toNat ∧ checkFrame.dst.toNat + 4 ≤ checkFrame.cfg.memSize :=
  ⟨by decide, checkFrame_written, by decide, by decide⟩

theorem witness_IcsUpdAccumulatesTheSourceRange :
    ({ State.reset with src := 65536#32, len := 0#32 } : State).src.toNat + 0 ≤ State.reset.cfg.memSize ∧
    State.reset.cfg.memSize < ({ State.reset with src := 65536#32, len := 1#32 } : State).src.toNat + 1 := by
  decide

theorem witness_IcsPutStoresTheChecksum :
    ({ State.reset with dst := 65534#32 } : State).dst.toNat + 2 ≤ State.reset.cfg.memSize ∧
    State.reset.cfg.memSize < ({ State.reset with dst := 65535#32 } : State).dst.toNat + 2 := by
  decide

theorem witness_OnesComplementAdditionLaws : (1#16 : Half) ≠ 0#16 := by decide

theorem witness_IcsSumsBigEndianWords : ([0x12#8, 0x34#8] : List Byte).length % 2 = 0 := by decide

/-- The header of 41_inet_checksum.md R84 with its checksum `0xB861`. -/
theorem witness_StoredChecksumValidates :
    ([0x45#8, 0x00#8] : List Byte).length % 2 = 0 ∧ ics (exampleHeader [0x00#8, 0x00#8]) = 0xB861#16 := by
  decide +kernel

/-- The ends of the legal `KLEN`. -/
theorem witness_Rc4KsaSchedulesTheKeyBytes :
    (1 ≤ (1#32 : Word).toNat ∧ (1#32 : Word).toNat ≤ 256) ∧ (1 ≤ (256#32 : Word).toNat ∧ (256#32 : Word).toNat ≤ 256) ∧
    ({ State.reset with klen := 256#32 } : State).klen.toNat = 256 ∧ State.reset.klen.toNat = 0 ∧
    256 < ({ State.reset with klen := 257#32 } : State).klen.toNat := by
  decide

/-- `RC4_KSA` twice, with a legal `KLEN`. -/
theorem witness_Rc4KsaSchedulesTheKeyBytes_twice :
    ∃ t u, exec .rc4Ksa { State.reset with klen := 1#32 } = .next t ∧ exec .rc4Ksa t = .next u := ⟨_, _, rfl, rfl⟩

theorem witness_Rc4XorMapsTheSourceRange :
    let s : State := { State.reset with src := 65535#32, dst := 65535#32, len := 1#32 }
    s.src.toNat + s.len.toNat ≤ s.cfg.memSize ∧ s.dst.toNat + s.len.toNat ≤ s.cfg.memSize ∧ 0 < s.len.toNat ∧
    s.cfg.memSize < ({ s with src := 65536#32 } : State).src.toNat + s.len.toNat ∧
    s.cfg.memSize < ({ s with dst := 65536#32 } : State).dst.toNat + s.len.toNat ∧
    State.reset.len = 0#32 ∧ ({ State.reset with src := 65536#32 } : State).src.toNat ≤ State.reset.cfg.memSize := by
  decide

/-- Both ways the two ranges may lie: the destination just after the source, and the destination at the source. -/
theorem witness_Rc4XorInPiecesIsRc4XorOfTheWhole :
    checkFrame.cfg.wf = true ∧ checkFrame.src.toNat + (4 + 5) ≤ checkFrame.cfg.memSize ∧
    checkFrame.dst.toNat + (4 + 5) ≤ checkFrame.cfg.memSize ∧ checkFrame.src.toNat + (4 + 5) ≤ checkFrame.dst.toNat ∧
    ({ checkFrame with dst := 0#32 } : State).dst.toNat ≤ checkFrame.src.toNat ∧
    sourceWritten { checkFrame with len := BitVec.ofNat 32 (4 + 5) } :=
  ⟨by decide, by decide, by decide, by decide, by decide, checkFrame_written⟩

theorem witness_Rc4TwiceInPlaceRestoresMemory :
    let s : State := { checkFrame with dst := 0#32, klen := 256#32 }
    1 ≤ s.klen.toNat ∧ s.klen.toNat ≤ 256 ∧ s.dst = s.src ∧ s.src.toNat + s.len.toNat ≤ s.cfg.memSize ∧ sourceWritten s :=
  ⟨by decide, by decide, rfl, by decide, checkFrame_written⟩

theorem witness_BselSelectsByTheDsBits :
    let s : State := { State.reset with fc := 0x4108#16, a1 := #v[0x00#8, 0x11#8, 0x22#8, 0x33#8, 0x44#8, 0x55#8] }
    s.fc = 0x4108#16 ∧ s.a1 = #v[0x00#8, 0x11#8, 0x22#8, 0x33#8, 0x44#8, 0x55#8] ∧
    (0x4108#16 : Half).getLsbD 8 = true ∧ (0x4108#16 : Half).getLsbD 9 = false ∧
    (0x0208#16 : Half).getLsbD 8 = false ∧ (0x0208#16 : Half).getLsbD 9 = true ∧
    (0x0308#16 : Half).getLsbD 8 = true ∧ (0x0308#16 : Half).getLsbD 9 = true ∧
    (0x0008#16 : Half).getLsbD 8 = false ∧ (0x0008#16 : Half).getLsbD 9 = false ∧
    Instr.wepDec.isPipeline = true ∧ ∃ t, exec .wepDec s = .next t :=
  ⟨rfl, rfl, by decide, by decide, by decide, by decide, by decide, by decide, by decide, by decide, rfl, ⟨_, rfl⟩⟩

theorem wepFrame_opens : opensWith .wepDec (wepFrame 0x00#8 0xE9#8) 4 wepExampleKey ∧
    openChecksPass .wepDec (wepFrame 0x00#8 0xE9#8) 4 ∧
    opensWith .wepDec (wepFrame 0x00#8 0xE8#8) 4 wepExampleKey ∧ openChecksPass .wepDec (wepFrame 0x00#8 0xE8#8) 4 :=
  ⟨.inl ⟨rfl, rfl, wepKey_wepFrame.1.symm⟩, by unfold openChecksPass; decide +kernel,
    .inl ⟨rfl, rfl, wepKey_wepFrame.2.1.symm⟩, by unfold openChecksPass; decide +kernel⟩

theorem tkipFrame_opens : opensWith .wpaDec (tkipFrame 0xA4#8) 8 tkipExampleKey ∧
    opensWith .tkipDec (tkipFrame 0xA4#8) 8 tkipExampleKey ∧ openChecksPass .tkipDec (tkipFrame 0xA4#8) 8 ∧
    openChecksPass .wpaDec (tkipFrame 0xA4#8) 8 ∧
    opensWith .tkipDec (tkipFrame 0xA5#8) 8 tkipExampleKey ∧ openChecksPass .tkipDec (tkipFrame 0xA5#8) 8 :=
  ⟨.inr ⟨.inr ⟨rfl, rfl⟩, rfl, tkipKey_tkipFrame.1.symm⟩, .inr ⟨.inl rfl, rfl, tkipKey_tkipFrame.1.symm⟩,
    by unfold openChecksPass; decide +kernel, by unfold openChecksPass; decide +kernel,
    .inr ⟨.inl rfl, rfl, tkipKey_tkipFrame.2.symm⟩, by unfold openChecksPass; decide +kernel⟩

/-- V31 and V32: the check values match, and do not; the same for TKIP. -/
theorem witness_OpenStepDeliversOnMatchAlone :
    (opensWith .wepDec (wepFrame 0x00#8 0xE9#8) 4 wepExampleKey ∧ openChecksPass .wepDec (wepFrame 0x00#8 0xE9#8) 4 ∧
      opensWith .wepDec (wepFrame 0x00#8 0xE8#8) 4 wepExampleKey ∧ openChecksPass .wepDec (wepFrame 0x00#8 0xE8#8) 4) ∧
    (opensWith .wpaDec (tkipFrame 0xA4#8) 8 tkipExampleKey ∧ opensWith .tkipDec (tkipFrame 0xA4#8) 8 tkipExampleKey ∧
      openChecksPass .tkipDec (tkipFrame 0xA4#8) 8 ∧ openChecksPass .wpaDec (tkipFrame 0xA4#8) 8 ∧
      opensWith .tkipDec (tkipFrame 0xA5#8) 8 tkipExampleKey ∧ openChecksPass .tkipDec (tkipFrame 0xA5#8) 8) ∧
    openIcv (wepFrame 0x00#8 0xE9#8) 4 wepExampleKey
      = le32Bytes (crc32 (openPlain (wepFrame 0x00#8 0xE9#8) 4 wepExampleKey)) ∧
    openIcv (wepFrame 0x00#8 0xE8#8) 4 wepExampleKey
      ≠ le32Bytes (crc32 (openPlain (wepFrame 0x00#8 0xE8#8) 4 wepExampleKey)) ∧
    openIcv (tkipFrame 0xA4#8) 8 tkipExampleKey
      = le32Bytes (crc32 (openPlain (tkipFrame 0xA4#8) 8 tkipExampleKey)) ∧
    openIcv (tkipFrame 0xA5#8) 8 tkipExampleKey
      ≠ le32Bytes (crc32 (openPlain (tkipFrame 0xA5#8) 8 tkipExampleKey)) := by
  obtain ⟨p, c, q, d⟩ := test_wep_open
  obtain ⟨p2, c2, q2, d2⟩ := test_tkip_open
  rw [p, c, q, d, p2, c2, q2, d2]
  exact ⟨wepFrame_opens, tkipFrame_opens, by decide +kernel⟩

/-- V31: the body is the plaintext `68 69` and its trailer, encrypted. -/
theorem witness_RecoversRc4EncryptedPlaintext :
    opensWith .wepDec (wepFrame 0x00#8 0xE9#8) 4 wepExampleKey ∧ openChecksPass .wepDec (wepFrame 0x00#8 0xE9#8) 4 ∧
    (wepFrame 0x00#8 0xE9#8).len.toNat = 4 + [0x68#8, 0x69#8].length + 4 ∧
    (wepFrame 0x00#8 0xE9#8).bytes ((wepFrame 0x00#8 0xE9#8).src.toNat + 4) ([0x68#8, 0x69#8].length + 4)
      = (rc4Xor (rc4Ksa wepExampleKey) ([0x68#8, 0x69#8] ++ le32Bytes (crc32 [0x68#8, 0x69#8]))).1 := by
  refine ⟨wepFrame_opens.1, wepFrame_opens.2.1, by decide +kernel, ?_⟩
  obtain ⟨h0, h1, h2, h3, h4, h5⟩ := wep_stream
  have e : [0x68#8, 0x69#8] ++ le32Bytes (crc32 [0x68#8, 0x69#8])
      = [0x68#8, 0x69#8, 0xAC#8, 0x2A#8, 0x93#8, 0xD8#8] := by decide +kernel
  have z : ∀ (r : Rc4) (a b c d f g : Byte), (rc4Xor r [a, b, c, d, f, g]).1
      = [a ^^^ rc4StreamByte r 0, b ^^^ rc4StreamByte r 1, c ^^^ rc4StreamByte r 2, d ^^^ rc4StreamByte r 3,
        f ^^^ rc4StreamByte r 4, g ^^^ rc4StreamByte r 5] := fun _ _ _ _ _ _ _ => rfl
  rw [e, z, h0, h1, h2, h3, h4, h5]
  decide +kernel

theorem wepFrame_written : sourceWritten (wepFrame 0x00#8 0xE9#8) :=
  frame_written [0x01#8, 0x02#8, 0x03#8, 0x00#8, 0xE9#8, 0x73#8, 0x59#8, 0xE4#8, 0x4E#8, 0x6D#8] 0x20#32 (by decide)

/-- V32 is V31 with byte 4 corrupted. -/
theorem witness_CorruptedCiphertextByteIsRejected :
    opensWith .wepDec (wepFrame 0x00#8 0xE9#8) 4 wepExampleKey ∧ sourceWritten (wepFrame 0x00#8 0xE9#8) ∧
    (∃ t, exec .wepDec (wepFrame 0x00#8 0xE9#8) = .next t ∧ t.status = .ok) ∧
    4 < (wepFrame 0x00#8 0xE9#8).len.toNat ∧
    0xE8#8 ≠ (wepFrame 0x00#8 0xE9#8).byteAt ((wepFrame 0x00#8 0xE9#8).src.toNat + 4) := by
  obtain ⟨t, e, h, -⟩ := test_wepDec
  exact ⟨wepFrame_opens.1, wepFrame_written, ⟨t, e, h⟩, by decide +kernel, by decide +kernel⟩

/-- Each check at the last value it refuses, with the checks before it at the first value they pass. -/
theorem witness_PipelineChecksInOrder :
    (7#32 : Word).toNat < State.reset.cfg.wepHdrLen.toNat + 4 ∧
    State.reset.cfg.wepHdrLen.toNat + 4 ≤ (8#32 : Word).toNat ∧ 253 < (254#32 : Word).toNat ∧ (253#32 : Word).toNat ≤ 253 ∧
    State.reset.cfg.memSize < (65529#32 : Word).toNat + (8#32 : Word).toNat ∧
    State.reset.cfg.memSize < (65536#32 : Word).toNat + ((9#32 : Word).toNat - State.reset.cfg.wepHdrLen.toNat - 4) ∧
    State.reset.cipher = .tkip ∧ (11#32 : Word).toNat < 12 ∧
    State.reset.cfg.memSize < (65525#32 : Word).toNat + (12#32 : Word).toNat ∧
    State.reset.cfg.memSize < (65536#32 : Word).toNat + ((13#32 : Word).toNat - 12) ∧
    takesCcmpPath .wpaDec { State.reset with cipher := .ccmp } ∧ (15#32 : Word).toNat < 16 ∧
    65535 < (65552#32 : Word).toNat - 16 ∧
    State.reset.cfg.memSize < (65521#32 : Word).toNat + (16#32 : Word).toNat ∧
    State.reset.cfg.memSize < (65536#32 : Word).toNat + ((17#32 : Word).toNat - 16) := by
  refine ⟨by decide, by decide, by decide, by decide, by decide, by decide, by decide, by decide, by decide, by decide,
    .inr ⟨rfl, rfl⟩, by decide, by decide, by decide, by decide⟩

theorem witness_WpaDecIsTheSelectedPath :
    State.reset.cipher = .tkip ∧ ({ State.reset with cipher := .ccmp } : State).cipher = .ccmp := ⟨rfl, rfl⟩

theorem ccmpFrame_checks : ccmpChecksPass (ccmpFrame 0x23#8) ∧ ccmpChecksPass (ccmpFrame 0x22#8) := by
  unfold ccmpChecksPass; decide +kernel

/-- V40 and V40l. -/
theorem witness_CcmpDeliversOnMicMatchAlone :
    takesCcmpPath .ccmpDec (ccmpFrame 0x23#8) ∧ ccmpChecksPass (ccmpFrame 0x23#8) ∧
    takesCcmpPath .wpaDec { ccmpFrame 0x23#8 with cipher := .ccmp } ∧
    ccmpComputed (ccmpFrame 0x23#8) = ccmpReceived (ccmpFrame 0x23#8) ∧
    ccmpChecksPass (ccmpFrame 0x22#8) ∧ ccmpComputed (ccmpFrame 0x22#8) ≠ ccmpReceived (ccmpFrame 0x22#8) :=
  ⟨.inl rfl, ccmpFrame_checks.1, .inr ⟨rfl, rfl⟩, (test_ccmp_open _ (.inl rfl)).2.mpr rfl, ccmpFrame_checks.2,
    fun h => absurd ((test_ccmp_open _ (.inr rfl)).2.mp h) (by decide)⟩

/-- V40: the body is the plaintext and its MIC, encrypted. -/
theorem witness_RecoversCcmpEncryptedPlaintext :
    let s := ccmpFrame 0x23#8
    takesCcmpPath .ccmpDec s ∧ ccmpChecksPass s ∧ s.len.toNat = 16 + ccmpExamplePlain.length ∧
    s.bytes (s.src.toNat + 8) ccmpExamplePlain.length
      = xorBytes ccmpExamplePlain (ccmKeystream s.ccmpTk (ccmpNonce s) ccmpExamplePlain.length) ∧
    s.bytes (s.src.toNat + 8 + ccmpExamplePlain.length) 8
      = xorBytes (ccmMac s.ccmpTk (ccmpNonce s) (ccmpAad s) ccmpExamplePlain)
          ((ccmKeyBlock s.ccmpTk (ccmpNonce s) 0).toList.take 8) := by
  obtain ⟨k, n, a⟩ := test_ccmp_inputs 0x23#8 (.inl rfl)
  have hl : ccmpExamplePlain.length = 20 := rfl
  refine ⟨.inl rfl, ccmpFrame_checks.1, by decide +kernel, ?_, ?_⟩
  · rw [k, n, hl, test_ccmp_keystream.1]; decide +kernel
  · rw [k, n, a, hl, test_ccmMac, test_ccmp_keystream.2]; decide +kernel

/-- One end that is not `OK` for each row of 60_exceptions.md R163. -/
theorem witness_NonOkEndsChangeOnlyWhatIsListed :
    (∀ i, decode 0x143#32 ≠ .ok i) ∧
    (∃ t, exec .crcUpd { State.reset with src := 65536#32, len := 1#32 } = .next t ∧ t.status = .errRange) ∧
    (∃ t, exec .rc4Ksa State.reset = .next t ∧ t.status = .errKlen) ∧
    (∃ t, exec .ccmpDec { State.reset with len := 15#32 } = .next t ∧ t.status = .errLen) ∧
    (∃ t, exec .wepDec (wepFrame 0x00#8 0xE8#8) = .next t ∧ t.status = .fail ∧
      opensWith .wepDec (wepFrame 0x00#8 0xE8#8) 4 wepExampleKey) ∧
    (∃ t, exec .ccmpDec (ccmpFrame 0x22#8) = .next t ∧ t.status = .fail ∧ takesCcmpPath .ccmpDec (ccmpFrame 0x22#8)) := by
  obtain ⟨t, e, h, -⟩ := test_wepDec_fail
  refine ⟨?_, ⟨_, rfl, by decide +kernel⟩, ⟨_, rfl, by decide +kernel⟩, ⟨_, rfl, by decide +kernel⟩,
    ⟨t, e, h, wepFrame_opens.2.2.1⟩, ⟨_, test_ccmpDec_fail, rfl, .inl rfl⟩⟩
  intro i h
  have d : decode 0x143#32 = .error (.zeroField 0x000001#24) := by decide
  rw [d] at h
  cases h

/-- A pipeline command that changes both `OLEN` and `FC`. -/
theorem witness_CommandsKeepTheHostsRegisters :
    ∃ t, exec .wepDec (wepFrame 0x00#8 0xE9#8) = .next t ∧ Instr.wepDec ≠ .srst ∧
      t.olen ≠ (wepFrame 0x00#8 0xE9#8).olen ∧ t.fc ≠ (wepFrame 0x00#8 0xE9#8).fc := by
  obtain ⟨t, e, -, o, f, -⟩ := test_wepDec
  exact ⟨t, e, by decide, by rw [o]; decide, by rw [f]; decide⟩

/-- One change of each unit's state. -/
theorem witness_UnitStateIsWrittenByItsCommandsAlone :
    (∃ t, exec .icsUpd (frame [0x01#8] 0#32) = .next t ∧ t.icsPhase ≠ (frame [0x01#8] 0#32).icsPhase) ∧
    (∃ t, exec .bsel { State.reset with a3 := #v[1#8, 2#8, 3#8, 4#8, 5#8, 6#8] } = .next t ∧ t.bssid ≠ State.reset.bssid) ∧
    (∃ t, exec .crcUpd checkFrame = .next t ∧ t.crcAcc ≠ checkFrame.crcAcc) ∧
    ∃ t, exec .rc4Xor (frame [0x01#8] 0#32) = .next t ∧ t.rc4.i ≠ (frame [0x01#8] 0#32).rc4.i :=
  ⟨⟨_, rfl, by decide +kernel⟩, ⟨_, rfl, by decide +kernel⟩, ⟨_, rfl, by decide +kernel⟩, ⟨_, rfl, by decide +kernel⟩⟩

/-- `CRC_PUT` over the first and last byte of the packet buffer it can change. -/
theorem witness_OnlyDestinationBytesChange :
    let s : State := { checkFrame with dst := 0#32 }
    ∃ t, exec .crcPut s = .next t ∧ t.byteAt 0 ≠ s.byteAt 0 ∧ t.byteAt 3 ≠ s.byteAt 3 :=
  ⟨_, rfl, by decide +kernel, by decide +kernel⟩

/-- V31 and V32c: two bodies that differ in the key-ID octet, and two states that differ in registers that do not matter. -/
theorem witness_WepDependsOnItsInputsAlone :
    let s := wepFrame 0x00#8 0xE9#8
    let u : State := { wepFrame 0x40#8 0xE9#8 with a2 := tkipExampleTa, crcAcc := 5#32 }
    sameOperands s u ∧ u.klen = s.klen ∧ u.password = s.password ∧ sameBody s u [3] ∧ s.cfg.wepHdrLen = .four ∧
    u.bodyByte 3 ≠ s.bodyByte 3 :=
  ⟨⟨rfl, rfl, rfl, rfl⟩, rfl, rfl, by unfold sameBody; decide +kernel, rfl, by decide +kernel⟩

/-- V55 with the ignored registers changed. -/
theorem witness_TkipDependsOnItsInputsAlone :
    let s := tkipFrame 0xA4#8
    let u : State := { (tkipFrame 0xA4#8).memWrite 1 [0x7F#8] with a1 := tkipExampleTa, klen := 999#32, fc := 0#16 }
    sameOperands s u ∧ u.a2 = s.a2 ∧
    (∀ k, 32 ≤ k → k < 48 → u.ptk.toList.getD k 0#8 = s.ptk.toList.getD k 0#8) ∧ sameBody s u [1, 3] ∧
    u.bodyByte 1 ≠ s.bodyByte 1 :=
  ⟨⟨rfl, rfl, rfl, rfl⟩, rfl, fun _ _ _ => rfl, by unfold sameBody; decide +kernel, by decide +kernel⟩

/-- V40 with masked bits of `FC` and `SC`, the ignored octet 2, `QC` and `A4` changed (V40d, V40m). -/
theorem witness_CcmpDependsOnItsInputsAlone :
    let s := ccmpFrame 0x23#8
    let u : State := { (ccmpFrame 0x23#8).memWrite 2 [0x01#8] with
      fc := 0x7808#16, sc := 0xFFF0#16, qc := 7#16, a4 := tkipExampleTa }
    sameOperands s u ∧ u.fc &&& 0x878F#16 = s.fc &&& 0x878F#16 ∧ u.sc &&& 0x000F#16 = s.sc &&& 0x000F#16 ∧
    s.fc.getLsbD 7 = false ∧ s.fc.getLsbD 8 = false ∧ u.a1 = s.a1 ∧ u.a2 = s.a2 ∧ u.a3 = s.a3 ∧
    (∀ k, k < 16 → u.ptk.toList.getD (s.cfg.ccmpTkOff.toNat + k) 0#8 = s.ptk.toList.getD (s.cfg.ccmpTkOff.toNat + k) 0#8) ∧
    sameBody s u [2, 3] ∧ u.bodyByte 2 ≠ s.bodyByte 2 :=
  ⟨⟨rfl, rfl, rfl, rfl⟩, by decide, by decide, by decide, by decide, rfl, rfl, rfl, fun _ _ => rfl,
    by unfold sameBody; decide +kernel, by decide +kernel⟩

/-- The hypotheses of the recurrence at `t = 4`, with the key of the example. -/
theorem witness_AesKeyScheduleRecurrence :
    (4, [0xA0#8, 0xFA#8, 0xFE#8, 0x17#8]) ∈ exampleScheduleWords ∧
    keyScheduleWord exampleScheduleKey (4 - 1) = [0x09#8, 0xCF#8, 0x4F#8, 0x3C#8] := by
  decide +kernel

theorem witness_SboxIsTheAffineInverse : (0x53#8 : Byte) ≠ 0#8 ∧ gmul 0x53#8 0xCA#8 = 1#8 := by decide

/-- Both ciphers and the six codes. -/
theorem witness_ScalarRegistersReadTheirFields :
    State.reset.cipher = .tkip ∧ ({ State.reset with cipher := .ccmp } : State).cipher = .ccmp ∧
    ∀ c : Code, ({ State.reset with status := c } : State).status = c := ⟨rfl, rfl, fun _ => rfl⟩

/-- The shortest and the longest key, one keystream byte, a permutation, and an exchange of an entry with itself. -/
theorem witness_Rc4ScheduleAndKeystream :
    (List.replicate 1 0xAA#8).length = 1 ∧ (List.replicate 256 0xAA#8).length = 256 ∧
    (∃ z t, rc4Next Rc4.reset = (z, t)) ∧ Rc4.reset.s.toList.Perm Rc4.identity.toList ∧
    0 < rc4ExampleText.length ∧ exchanged Rc4.identity Rc4.identity 7#8 7#8 :=
  ⟨rfl, List.length_replicate, ⟨_, _, rfl⟩, List.Perm.refl _, by decide, rfl, rfl, fun _ _ _ => rfl⟩

/-- The four examples and the last column of a state. -/
theorem witness_AesCipherIsTenRounds :
    aesExamples.length = 4 ∧ (tkipExampleTk.toList.drop (4 * 3)).take 4 = [0x0C#8, 0x0D#8, 0x0E#8, 0x0F#8] := by
  decide +kernel

/-- The four vectors, and the temporal key of the frame of V55. -/
theorem witness_TkipMixesTheKeyInTwoPhases :
    tkipVectors.length = 4 ∧ tkipExampleTk.toList = ((tkipFrame 0xA4#8).ptk.toList.drop 32).take 16 := by
  decide +kernel

/-- The counter block of V40 with the largest counter, the lengths of the nonce and of the shortest AAD, and the last byte of a
partial block. -/
theorem witness_CcmCounterModeAndCbcMac :
    ccmpExampleNonce.length = 13 ∧
    (#v[0x01#8, 0x00#8, 0x50#8, 0x30#8, 0xF1#8, 0x84#8, 0x44#8, 0x08#8,
      0xB5#8, 0x03#8, 0x97#8, 0x76#8, 0xE7#8, 0x0C#8, 0x10#8, 0x00#8] : Block).toList
      = [0x01#8] ++ ccmpExampleNonce ++ [BitVec.ofNat 8 (4096 / 256), BitVec.ofNat 8 4096] ∧
    22 ≤ ccmpExampleAad.length ∧ ccmpExampleAad.length ≤ 30 ∧ ccmpExamplePlain.length ≤ 65535 ∧
    19 < ccmpExamplePlain.length ∧ 19 < (ccmpFrame 0x23#8).len.toNat - 16 := by
  decide +kernel

end Sys2Proof.Tests
end

section
/-! PROOF. The register file seen from the bus (10_state.md R11, R17, R28): what a register write stores, what it leaves
alone, and that a command word written to `CMD` runs its command. -/

namespace Sys2Proof.Machine

/-! ### The model's own fields -/

/-- The four fields that are the model's own are the same: no command of the block can reach them (log 1, 4, 5, 10). -/
def keepsOwnFields (s t : State) : Prop :=
  t.cfg = s.cfg ∧ t.draws = s.draws ∧ t.inbox = s.inbox ∧ t.reply = s.reply

theorem keepsOwnFields_ite {s t u : State} (p : Prop) [Decidable p] (ht : keepsOwnFields s t) (hu : keepsOwnFields s u) :
    keepsOwnFields s (if p then t else u) := by
  split <;> assumption

theorem keepsOwnFields_done (s : State) : keepsOwnFields s s.done := ⟨rfl, rfl, rfl, rfl⟩

theorem keepsOwnFields_raise (s : State) (c : Code) : keepsOwnFields s (s.raise c) := ⟨rfl, rfl, rfl, rfl⟩

theorem keepsOwnFields_raisePipeline (s : State) (c : Code) : keepsOwnFields s (s.raisePipeline c) :=
  ⟨rfl, rfl, rfl, rfl⟩

theorem keepsOwnFields_dstWrite_done (s : State) (v : List Byte) : keepsOwnFields s (s.dstWrite v).done :=
  ⟨rfl, rfl, rfl, rfl⟩

theorem keepsOwnFields_commitPlaintext (s : State) (p : List Byte) : keepsOwnFields s (commitPlaintext s p) :=
  ⟨rfl, rfl, rfl, rfl⟩

theorem keepsOwnFields_rc4CrcOpen (key : List Byte) (h : Nat) (s : State) : keepsOwnFields s (rc4CrcOpen key h s) :=
  keepsOwnFields_ite _ ⟨rfl, rfl, rfl, rfl⟩ ⟨rfl, rfl, rfl, rfl⟩

theorem keepsOwnFields_tkipDecrypt (s : State) : keepsOwnFields s (tkipDecrypt s) := by
  rcases tkipDecrypt_cases s with ⟨-, e⟩ | ⟨-, -, e⟩ | ⟨-, -, -, e⟩ <;> rw [e]
  · exact keepsOwnFields_raisePipeline s _
  · exact keepsOwnFields_raisePipeline s _
  · exact keepsOwnFields_rc4CrcOpen _ _ s

theorem keepsOwnFields_ccmpDecrypt (s : State) : keepsOwnFields s (ccmpDecrypt s) := by
  rcases ccmpDecrypt_cases s with ⟨-, e⟩ | ⟨-, -, -, e⟩ | ⟨-, -, e⟩ | ⟨-, -, e⟩ <;> rw [e]
  · exact keepsOwnFields_raisePipeline s _
  · exact keepsOwnFields_raisePipeline s _
  · exact keepsOwnFields_commitPlaintext s _
  · exact keepsOwnFields_raisePipeline s _

/-- No command changes a field that is the model's own. -/
theorem exec_keepsOwnFields (i : Instr) (s : State) : ∃ t, exec i s = .next t ∧ keepsOwnFields s t := by
  cases i with
  | nop => exact ⟨_, rfl, keepsOwnFields_done s⟩
  | srst | crcInit | icsInit | bsel => exact ⟨_, rfl, rfl, rfl, rfl, rfl⟩
  | crcUpd | icsUpd => exact ⟨_, rfl, keepsOwnFields_ite _ ⟨rfl, rfl, rfl, rfl⟩ (keepsOwnFields_raise s _)⟩
  | crcPut | icsPut =>
    exact ⟨_, rfl, keepsOwnFields_ite _ (keepsOwnFields_dstWrite_done s _) (keepsOwnFields_raise s _)⟩
  | rc4Ksa => exact ⟨_, rfl, keepsOwnFields_ite _ (keepsOwnFields_raise s _) ⟨rfl, rfl, rfl, rfl⟩⟩
  | rc4Xor => exact ⟨_, rfl, keepsOwnFields_ite _ ⟨rfl, rfl, rfl, rfl⟩ (keepsOwnFields_raise s _)⟩
  | wepDec =>
    rcases execWepDec_cases s with ⟨-, e⟩ | ⟨-, -, e⟩ | ⟨-, -, -, e⟩ | ⟨-, -, -, -, e⟩
    · exact ⟨_, e, keepsOwnFields_raisePipeline s _⟩
    · exact ⟨_, e, keepsOwnFields_raisePipeline s _⟩
    · exact ⟨_, e, keepsOwnFields_raisePipeline s _⟩
    · exact ⟨_, e, keepsOwnFields_rc4CrcOpen _ _ s⟩
  | wpaDec =>
    cases h : s.cipher with
    | tkip => exact ⟨tkipDecrypt s, by simp only [exec, execWpaDec, h], keepsOwnFields_tkipDecrypt s⟩
    | ccmp => exact ⟨ccmpDecrypt s, by simp only [exec, execWpaDec, h], keepsOwnFields_ccmpDecrypt s⟩
  | tkipDec => exact ⟨_, rfl, keepsOwnFields_tkipDecrypt s⟩
  | ccmpDec => exact ⟨_, rfl, keepsOwnFields_ccmpDecrypt s⟩

theorem keepsOwnFields_of_exec {i : Instr} {s t : State} (h : exec i s = .next t) : keepsOwnFields s t := by
  obtain ⟨u, hu, k⟩ := exec_keepsOwnFields i s
  obtain rfl : u = t := by simpa [hu] using h
  exact k

/-! ### Serving the next event -/

theorem step_of_inbox {s : State} {e : Event} {rest : List Event} (h : s.inbox = e :: rest) :
    step s = serve e { s with inbox := rest } := by
  simp only [step, h]

/-- `CMD` is mapped at 0x0C (10_state.md R11). -/
theorem accessReg_cmd (s : State) : accessReg s 32 0x0C = some .cmd := rfl

theorem serveWrite_of_reg {s : State} {bits off : Nat} {r : Reg} (v : Word) (h : accessReg s bits off = some r)
    (hr : r ≠ .cmd) : serveWrite bits off v s = .next ((writeReg s r v).answered (.write .okay)) := by
  rcases serveWrite_cases bits off v s with ⟨h', -⟩ | ⟨h', -⟩ | ⟨r', -, h', e⟩
  · simp [h] at h'
  · exact absurd (by simpa [h] using h') hr
  · obtain rfl : r = r' := by simpa [h] using h'
    exact e

theorem serveWrite_cmd (s : State) {w : Word} {i : Instr} {t : State} (hd : decode w = .ok i)
    (he : exec i s = .next t) : serveWrite 32 0x0C w s = .next (t.answered (.write .okay)) := by
  have hi : issue w s = .next t := by simp only [issue, hd, he]
  simp only [serveWrite, accessReg_cmd, hi, answerOutcome]

/-- A command word offered as a write to `CMD` runs its command (10_state.md R17). -/
theorem step_of_command {s t : State} {w : Word} {rest : List Event} {i : Instr}
    (hin : s.inbox = .write 32 0x0C w :: rest) (hd : decode w = .ok i) (he : exec i { s with inbox := rest } = .next t) :
    step s = .next { t with reply := some (.write .okay), draws := s.draws + 1 } := by
  obtain ⟨-, hdraws, -, -⟩ := keepsOwnFields_of_exec he
  calc step s = serveWrite 32 0x0C w { s with inbox := rest } := step_of_inbox hin
    _ = .next (t.answered (.write .okay)) := serveWrite_cmd _ hd he
    _ = .next { t with reply := some (.write .okay), draws := s.draws + 1 } := by rw [State.answered, hdraws]

/-- The host's view of the decoder is the decoder on the word that `withFetchWord` offers. -/
theorem decode_of_decodeTableWord {n w : Nat} {i : Instr} (h : decodeTableWord n w = some i) :
    decode (BitVec.ofNat 32 (w % 2 ^ n)) = .ok i := by
  simp only [decodeTableWord] at h
  split at h
  · cases hd : decode (BitVec.ofNat 32 (w % 2 ^ n)) with
    | ok j => simpa [hd, Except.toOption] using h
    | error e => simp [hd, Except.toOption] at h
  · cases h

/-- Settles O5: the three ways a transaction reaches `CMD`, a command by `step_of_command` and a read by the map; that the
event count is the step's own is `exec_keepsOwnFields`. -/
theorem stepRunsTheDecodedCommand : Obligations.StepRunsTheDecodedCommand := by
  refine ⟨fun s t w rest i hin hd he => step_of_command hin hd he, fun s t n w i hd he => ?_, fun s rest hin => ?_⟩
  · exact step_of_command (s := s.withFetchWord n w) rfl (decode_of_decodeTableWord hd) he
  · rw [step_of_inbox hin]
    rfl

/-! ### Words and their bits -/

/-- Keeping the `n` low bits of a bus word. -/
theorem and_lowBits (v : Word) (n : Nat) (h : n ≤ 32) :
    v &&& BitVec.ofNat 32 (2 ^ n - 1) = (v.extractLsb' 0 n).setWidth 32 := by
  have hn : 2 ^ n ≤ 2 ^ 32 := Nat.pow_le_pow_right (by decide) h
  have hp : 0 < 2 ^ n := Nat.two_pow_pos n
  apply BitVec.eq_of_toNat_eq
  have hm : v.toNat % 2 ^ n < 2 ^ 32 := lt_of_lt_of_le (Nat.mod_lt _ hp) hn
  simp only [BitVec.toNat_and, BitVec.toNat_ofNat, BitVec.toNat_setWidth, BitVec.extractLsb'_toNat, Nat.shiftRight_zero]
  rw [Nat.mod_eq_of_lt (show 2 ^ n - 1 < 2 ^ 32 by omega), Nat.and_two_pow_sub_one_eq_mod, Nat.mod_eq_of_lt hm]

/-- A value of `n` bits uses no other bit of the bus word it is read in. -/
theorem setWidth_and_lowBits {n : Nat} (x : BitVec n) (h : n ≤ 32) :
    x.setWidth 32 &&& BitVec.ofNat 32 (2 ^ n - 1) = x.setWidth 32 := by
  rw [and_lowBits _ n h]
  congr 1
  ext k hk
  simp [hk, show k < 32 by omega]

/-- A word that uses only the bits of a mask has no other bit set. -/
theorem and_not_of_and_eq {x m : Word} (h : x &&& m = x) : x &&& ~~~m = 0#32 := by
  rw [← h, BitVec.and_assoc]
  simp

/-- Splitting a word into its byte lanes and reading them back (20_memory.md R42). -/
theorem le32_byteLane (v : Word) : le32 (byteLane v 0) (byteLane v 1) (byteLane v 2) (byteLane v 3) = v := by
  simp only [le32, byteLane]
  rw [BitVec.extractLsb'_append_extractLsb'_eq_extractLsb' (by decide),
    BitVec.extractLsb'_append_extractLsb'_eq_extractLsb' (by decide),
    BitVec.extractLsb'_append_extractLsb'_eq_extractLsb' (by decide)]
  exact BitVec.extractLsb'_eq_self

theorem le16_byteLane (v : Word) : le16 (byteLane v 0) (byteLane v 1) = v.extractLsb' 0 16 :=
  BitVec.extractLsb'_append_extractLsb'_eq_extractLsb' (by decide)

theorem ofBool_getLsbD (v : Word) (k : Nat) : BitVec.ofBool (v.getLsbD k) = v.extractLsb' k 1 := by
  ext j hj
  obtain rfl : j = 0 := by omega
  simp

/-- `CTRL.CIPHER` is bit 0 of the word written (10_state.md R14). -/
theorem cipherOfWord_bit (v : Word) : (cipherOfWord v).bit = v.extractLsb' 0 1 := by
  rw [← ofBool_getLsbD, cipherOfWord]
  cases v.getLsbD 0 <;> rfl

/-- `ICS_ACC` is the 17-bit value `PHASE` above `SUM` (10_state.md R19). -/
theorem icsAccWord_eq_setWidth (sum : Half) (phase : Bool) :
    icsAccWord sum phase = (BitVec.ofBool phase ++ sum).setWidth 32 := by
  rw [icsAccWord, BitVec.setWidth_eq_append (by decide)]
  exact BitVec.append_assoc

theorem icsAccWord_of_word (v : Word) :
    icsAccWord (v.extractLsb' 0 16) (v.getLsbD 16) = (v.extractLsb' 0 17).setWidth 32 := by
  rw [icsAccWord_eq_setWidth, ofBool_getLsbD, BitVec.extractLsb'_append_extractLsb'_eq_extractLsb' (by decide)]

/-! ### Words of the byte windows and of the addresses -/

section Window

variable {n : Nat} (v : Vector Byte n) (k : Nat) (h : k + 3 < n) (w : Word)

theorem getElem_setWindowWord (j : Nat) (hj : j < n) :
    (setWindowWord v k h w)[j] = if k ≤ j ∧ j < k + 4 then byteLane w (j - k) else v[j] := by
  simp only [setWindowWord, Vector.getElem_set]
  grind

/-- A word written to a byte window is read back (20_memory.md R42). -/
theorem windowWord_setWindowWord : windowWord (setWindowWord v k h w) k h = w := by
  simp [windowWord, getElem_setWindowWord, le32_byteLane]

/-- Every other word of the window is left alone. -/
theorem windowWord_setWindowWord_of_disjoint (j : Nat) (hj : j + 3 < n) (hd : j + 3 < k ∨ k + 3 < j) :
    windowWord (setWindowWord v k h w) j hj = windowWord v j hj := by
  simp only [windowWord, getElem_setWindowWord]
  rw [if_neg (by omega), if_neg (by omega), if_neg (by omega), if_neg (by omega)]

end Window

theorem addrLoWord_setAddrLo (a : Addr) (w : Word) : addrLoWord (setAddrLo a w) = w := le32_byteLane w

theorem addrHiWord_setAddrLo (a : Addr) (w : Word) : addrHiWord (setAddrLo a w) = addrHiWord a := rfl

theorem addrLoWord_setAddrHi (a : Addr) (w : Word) : addrLoWord (setAddrHi a w) = addrLoWord a := rfl

theorem addrHiWord_setAddrHi (a : Addr) (w : Word) : addrHiWord (setAddrHi a w) = (w.extractLsb' 0 16).setWidth 32 :=
  congrArg (BitVec.setWidth 32) (le16_byteLane w)

theorem State.addr_setAddr (s : State) (n : AddrReg) (a : Addr) (m : AddrReg) :
    (s.setAddr n a).addr m = if m = n then a else s.addr m := by
  cases n <;> cases m <;> rfl

/-! ### Register writes -/

/-- A register write reaches no unmapped engine (10_state.md R20), no parameter (R30) and not the event count. -/
theorem writeReg_unmapped (s : State) (r : Reg) (v : Word) :
    (writeReg s r v).rc4 = s.rc4 ∧ (writeReg s r v).cfg = s.cfg ∧ (writeReg s r v).draws = s.draws := by
  cases r with
  | addrLo n => cases n <;> exact ⟨rfl, rfl, rfl⟩
  | addrHi n => cases n <;> exact ⟨rfl, rfl, rfl⟩
  | _ => exact ⟨rfl, rfl, rfl⟩

theorem writeReg_of_ignoresWrites (s : State) (r : Reg) (v : Word) (h : ignoresWrites r = true) : writeReg s r v = s := by
  cases r with
  | id | status | cmd | olen | crcVal | icsVal | bssidLo | bssidHi => rfl
  | _ => cases h

/-- A read uses no reserved bit (10_state.md R28). -/
theorem readReg_and_usedBits (s : State) (r : Reg) : readReg s r &&& usedBits r = readReg s r := by
  cases r with
  | ctrl => exact setWidth_and_lowBits (n := 1) _ (by decide)
  | status => exact setWidth_and_lowBits (n := 4) _ (by decide)
  | icsAcc =>
    rw [readReg, icsAccWord_eq_setWidth]
    exact setWidth_and_lowBits (n := 17) _ (by decide)
  | icsVal | bssidHi | fc | sc | qc | addrHi => exact setWidth_and_lowBits (n := 16) _ (by decide)
  | _ => exact BitVec.and_allOnes

/-- A writable register reads back the used bits of the word written to it. -/
theorem readReg_writeReg_self (s : State) (r : Reg) (v : Word) (h : ignoresWrites r = false) :
    readReg (writeReg s r v) r = v &&& usedBits r := by
  cases r with
  | id | status | cmd | olen | crcVal | icsVal | bssidLo | bssidHi => cases h
  | ctrl =>
    calc (cipherOfWord v).bit.setWidth 32 = (v.extractLsb' 0 1).setWidth 32 := by rw [cipherOfWord_bit]
      _ = v &&& usedBits .ctrl := (and_lowBits v 1 (by decide)).symm
  | icsAcc => exact (icsAccWord_of_word v).trans (and_lowBits v 17 (by decide)).symm
  | fc | sc | qc => exact (and_lowBits v 16 (by decide)).symm
  | addrHi n =>
    simp only [readReg, writeReg, State.addr_setAddr, if_true, addrHiWord_setAddrHi]
    exact (and_lowBits v 16 (by decide)).symm
  | src | dst | len | klen | crcAcc => exact BitVec.and_allOnes.symm
  | addrLo n =>
    simp only [readReg, writeReg, State.addr_setAddr, if_true, addrLoWord_setAddrLo]
    exact BitVec.and_allOnes.symm
  | key w => exact (windowWord_setWindowWord _ _ _ v).trans BitVec.and_allOnes.symm
  | ptk w => exact (windowWord_setWindowWord _ _ _ v).trans BitVec.and_allOnes.symm
  | mem w =>
    have hw : readReg (writeReg s (.mem w) v) (.mem w) = v := by
      simp [readReg, writeReg, State.byteAt_memWrite, le32Bytes, le32_byteLane]
    exact hw.trans BitVec.and_allOnes.symm

/-- Replacing an address register changes at most its own two words. -/
theorem readReg_setAddr (s : State) (n : AddrReg) (a : Addr) (r : Reg)
    (hlo : r = .addrLo n → addrLoWord a = addrLoWord (s.addr n))
    (hhi : r = .addrHi n → addrHiWord a = addrHiWord (s.addr n)) : readReg (s.setAddr n a) r = readReg s r := by
  cases r with
  | addrLo m =>
    simp only [readReg, State.addr_setAddr]
    split
    next e => rw [hlo (by rw [e]), e]
    next => rfl
  | addrHi m =>
    simp only [readReg, State.addr_setAddr]
    split
    next e => rw [hhi (by rw [e]), e]
    next => rfl
  | _ => cases n <;> rfl

/-- A write changes no word but its own and one computed from it (10_state.md R28). -/
theorem readReg_writeReg_of_ne (s : State) (r : Reg) (v : Word) (r' : Reg) (hne : r' ≠ r)
    (hder : derivedFrom r' ≠ some r) : readReg (writeReg s r v) r' = readReg s r' := by
  cases r with
  | id | status | cmd | olen | crcVal | icsVal | bssidLo | bssidHi => rfl
  | ctrl => cases r' with | ctrl => exact absurd rfl hne | _ => rfl
  | src => cases r' with | src => exact absurd rfl hne | _ => rfl
  | dst => cases r' with | dst => exact absurd rfl hne | _ => rfl
  | len => cases r' with | len => exact absurd rfl hne | _ => rfl
  | klen => cases r' with | klen => exact absurd rfl hne | _ => rfl
  | fc => cases r' with | fc => exact absurd rfl hne | _ => rfl
  | sc => cases r' with | sc => exact absurd rfl hne | _ => rfl
  | qc => cases r' with | qc => exact absurd rfl hne | _ => rfl
  | crcAcc =>
    cases r' with
    | crcAcc => exact absurd rfl hne
    | crcVal => exact absurd rfl hder
    | _ => rfl
  | icsAcc =>
    cases r' with
    | icsAcc => exact absurd rfl hne
    | icsVal => exact absurd rfl hder
    | _ => rfl
  | addrLo n => exact readReg_setAddr _ _ _ _ (fun e => absurd e hne) fun _ => addrHiWord_setAddrLo _ v
  | addrHi n => exact readReg_setAddr _ _ _ _ (fun _ => addrLoWord_setAddrHi _ v) fun e => absurd e hne
  | key w =>
    cases r' with
    | key w' =>
      have hw : w'.val ≠ w.val := fun e => hne (by rw [Fin.ext e])
      exact windowWord_setWindowWord_of_disjoint _ _ (by omega) v _ _ (by omega)
    | _ => rfl
  | ptk w =>
    cases r' with
    | ptk w' =>
      have hw : w'.val ≠ w.val := fun e => hne (by rw [Fin.ext e])
      exact windowWord_setWindowWord_of_disjoint _ _ (by omega) v _ _ (by omega)
    | _ => rfl
  | mem w =>
    cases r' with
    | mem w' =>
      have hw : w' ≠ w := fun e => hne (by rw [e])
      have hb : ∀ k, 4 * w' ≤ k → k < 4 * w' + 4 → (writeReg s (.mem w) v).byteAt k = s.byteAt k := fun k h1 h2 => by
        rw [writeReg, State.byteAt_memWrite, dif_neg (by simp only [le32Bytes_length]; omega)]
      simp only [readReg]
      rw [hb _ (by omega) (by omega), hb _ (by omega) (by omega), hb _ (by omega) (by omega), hb _ (by omega) (by omega)]
    | _ => rfl

/-- A write offered for a mapped word other than `CMD` is a register write (20_memory.md R40). -/
theorem step_of_regWrite {s : State} {off : Nat} {r : Reg} {v : Word} {rest : List Event}
    (ha : accessReg s 32 off = some r) (hr : r ≠ .cmd) (hin : s.inbox = .write 32 off v :: rest) :
    step s = .next { writeReg { s with inbox := rest } r v with reply := some (.write .okay), draws := s.draws + 1 } := by
  obtain ⟨-, -, hdraws⟩ := writeReg_unmapped { s with inbox := rest } r v
  calc step s = serveWrite 32 off v { s with inbox := rest } := step_of_inbox hin
    _ = .next ((writeReg { s with inbox := rest } r v).answered (.write .okay)) := serveWrite_of_reg v ha hr
    _ = _ := by rw [State.answered, hdraws]

/-- Settles O14: a write is served as `writeReg`, which stores the used bits of a writable register
(`readReg_writeReg_self`) and leaves every other word alone (`readReg_writeReg_of_ne`). -/
theorem registerWritesStoreUsedBits : Obligations.RegisterWritesStoreUsedBits := by
  refine ⟨fun s off r v rest ha hr hin => step_of_regWrite ha hr hin, fun s r v => ?_⟩
  obtain ⟨hrc4, hcfg, -⟩ := writeReg_unmapped s r v
  refine ⟨?_, and_not_of_and_eq (readReg_and_usedBits s r), hrc4, hcfg, readReg_writeReg_of_ne s r v⟩
  cases h : ignoresWrites r with
  | true => rw [writeReg_of_ignoresWrites s r v h, if_pos rfl]
  | false => rw [readReg_writeReg_self s r v h, if_neg Bool.false_ne_true]

end Sys2Proof.Machine
end

section
/-! PROOF. The byte windows `KEY`, `PTK` and `MEM` seen from the bus, little-endian by lane (20_memory.md R42). -/

namespace Sys2Proof.Machine

/-! ### A word as its four bytes -/

/-- The two spellings of `LE32` (00_scope.md R6), bytes concatenated and bytes shifted into place, are one. -/
theorem le32_eq_le32Or (b0 b1 b2 b3 : Byte) : le32 b0 b1 b2 b3 = le32Or b0 b1 b2 b3 := by
  calc le32 b0 b1 b2 b3 = (b3 ++ b2 ++ b1 ++ b0).setWidth 32 := (BitVec.setWidth_eq _).symm
    _ = ((b3.setWidth 32 <<< 8 ||| b2.setWidth 32) <<< 8 ||| b1.setWidth 32) <<< 8 ||| b0.setWidth 32 := by
      simp only [BitVec.setWidth_append_eq_shiftLeft_setWidth_or]
    _ = le32Or b0 b1 b2 b3 := by
      simp only [le32Or, BitVec.shiftLeft_or_distrib, ← BitVec.shiftLeft_add, Nat.reduceAdd, BitVec.or_comm,
        BitVec.or_assoc]

/-- Entry `k` of the bytes of a word is its byte lane `k`. -/
theorem getElem?_le32Bytes (v : Word) {k : Nat} (hk : k < 4) : (le32Bytes v)[k]? = some (byteLane v k) := by
  match k, hk with
  | 0, _ | 1, _ | 2, _ | 3, _ => rfl

/-! ### The byte windows of registers -/

section Window

variable {n : Nat} (v : Vector Byte n)

theorem getElem_eq_toList_getD (j : Nat) (hj : j < n) : v[j] = v.toList.getD j 0#8 := by
  simp [hj]

/-- A word of a byte window is `LE32` of its four bytes. -/
theorem windowWord_eq_le32Or (k : Nat) (h : k + 3 < n) :
    windowWord v k h = le32Or (v.toList.getD k 0#8) (v.toList.getD (k + 1) 0#8) (v.toList.getD (k + 2) 0#8)
      (v.toList.getD (k + 3) 0#8) := by
  simp only [windowWord, le32_eq_le32Or, getElem_eq_toList_getD]

/-- The four bytes of a word written to a byte window are its lanes. -/
theorem setWindowWord_getD_lane (k : Nat) (h : k + 3 < n) (w : Word) {j : Nat} (hj : j < 4) :
    (setWindowWord v k h w).toList.getD (k + j) 0#8 = byteLane w j := by
  rw [← getElem_eq_toList_getD _ _ (by omega), getElem_setWindowWord, if_pos (by omega), Nat.add_sub_cancel_left]

/-- A word written to a byte window leaves every byte outside it alone. -/
theorem setWindowWord_getD_outside (k : Nat) (h : k + 3 < n) (w : Word) {x : Nat} (hx : x < k ∨ k + 4 ≤ x) :
    (setWindowWord v k h w).toList.getD x 0#8 = v.toList.getD x 0#8 := by
  by_cases hn : x < n
  · rw [← getElem_eq_toList_getD _ _ hn, ← getElem_eq_toList_getD _ _ hn, getElem_setWindowWord, if_neg (by omega)]
  · rw [List.getD_eq_default _ _ (by simpa using hn), List.getD_eq_default _ _ (by simpa using hn)]

end Window

/-! ### The packet buffer -/

/-- The four bytes of a word stored to the buffer are its lanes. -/
theorem lookup_storeRange_le32Bytes_lane (m : Memory) (a : Nat) (v : Word) {k : Nat} (hk : k < 4) :
    (m.storeRange a (le32Bytes v)).lookup (a + k) = some (byteLane v k) := by
  rw [Memory.lookup_storeRange, le32Bytes_length, if_pos (by omega), Nat.add_sub_cancel_left, getElem?_le32Bytes v hk]

/-- A word stored to the buffer leaves every byte outside it alone. -/
theorem lookup_storeRange_le32Bytes_outside (m : Memory) (a : Nat) (v : Word) {x : Nat} (hx : x < a ∨ a + 4 ≤ x) :
    (m.storeRange a (le32Bytes v)).lookup x = m.lookup x := by
  rw [Memory.lookup_storeRange, le32Bytes_length, if_neg (by omega)]

/-! ### Where the windows stand in the register map (10_state.md R11) -/

theorem accessReg_of_aligned (s : State) {off : Nat} (h : off % 4 = 0) :
    accessReg s 32 off = regAt s.cfg.memSize off := by
  rw [accessReg, if_pos rfl, if_pos h]

theorem accessReg_keyOffset (s : State) (w : Fin 64) : accessReg s 32 (0x100 + 4 * w.val) = some (.key w) := by
  have hw : (0x100 + 4 * w.val - 0x100) / 4 = w.val := by omega
  rw [accessReg_of_aligned s (by omega), regAt, if_neg (by omega), if_neg (by omega), if_pos (by omega),
    dif_pos (by omega)]
  simp only [hw]

theorem accessReg_ptkOffset (s : State) (w : Fin 16) : accessReg s 32 (0x200 + 4 * w.val) = some (.ptk w) := by
  have hw : (0x200 + 4 * w.val - 0x200) / 4 = w.val := by omega
  rw [accessReg_of_aligned s (by omega), regAt, if_neg (by omega), if_pos (by omega), dif_pos (by omega)]
  simp only [hw]

theorem accessReg_memOffset (s : State) {w : Nat} (hw : 4 * w + 4 ≤ s.cfg.memSize) :
    accessReg s 32 (0x10000 + 4 * w) = some (.mem w) := by
  rw [accessReg_of_aligned s (by omega), regAt, if_pos (by omega), if_pos (by omega),
    show (0x10000 + 4 * w - 0x10000) / 4 = w by omega]

/-! ### Bus accesses to the windows -/

/-- What the host still offers is no part of what a register reads (log 1). -/
theorem readReg_inbox (s : State) (rest : List Event) (r : Reg) : readReg { s with inbox := rest } r = readReg s r := by
  cases r with
  | addrLo n => cases n <;> rfl
  | addrHi n => cases n <;> rfl
  | _ => rfl

/-- A read offered for a mapped word answers that word and changes no register (20_memory.md R40, R46). -/
theorem step_of_regRead {s : State} {off : Nat} {r : Reg} {rest : List Event} (ha : accessReg s 32 off = some r)
    (hin : s.inbox = .read 32 off :: rest) :
    step s = .next (State.answered { s with inbox := rest } (.read .okay (readReg s r))) := by
  have ha' : accessReg { s with inbox := rest } 32 off = some r := ha
  rw [step_of_inbox hin, serve, serveRead, ha', ← readReg_inbox s rest]

/-- The answer to such a read, for a word whose value is known. -/
theorem reply_of_regRead {s : State} {off : Nat} {r : Reg} {rest : List Event} {d : Word}
    (ha : accessReg s 32 off = some r) (hin : s.inbox = .read 32 off :: rest) (hd : readReg s r = d) :
    ∃ t, step s = .next t ∧ t.reply = some (.read .okay d) := by
  subst hd
  exact ⟨_, step_of_regRead ha hin, rfl⟩

/-- Settles O13: the map puts each offset at its window's word, a read of which is `LE32` of its bytes
(`windowWord_eq_le32Or`, and `le32_eq_le32Or` for `MEM`), and a write of which stores the lanes of the word and no other
byte. -/
theorem windowsAreLittleEndianByLane : Obligations.WindowsAreLittleEndianByLane := by
  refine fun s rest v => ⟨fun w hw => ?_, fun w hw => ?_, fun w hw => ?_⟩
  · have ha := accessReg_keyOffset s ⟨w, hw⟩
    have hk : 4 * w + 3 < 256 := by omega
    exact ⟨fun hin => reply_of_regRead ha hin (windowWord_eq_le32Or s.key (4 * w) hk),
      fun hin => ⟨_, step_of_regWrite ha nofun hin, rfl, fun _ => setWindowWord_getD_lane s.key (4 * w) hk v,
        fun _ => setWindowWord_getD_outside s.key (4 * w) hk v⟩⟩
  · have ha := accessReg_ptkOffset s ⟨w, hw⟩
    have hk : 4 * w + 3 < 64 := by omega
    exact ⟨fun hin => reply_of_regRead ha hin (windowWord_eq_le32Or s.ptk (4 * w) hk),
      fun hin => ⟨_, step_of_regWrite ha nofun hin, rfl, fun _ => setWindowWord_getD_lane s.ptk (4 * w) hk v,
        fun _ => setWindowWord_getD_outside s.ptk (4 * w) hk v⟩⟩
  · have ha := accessReg_memOffset s hw
    exact ⟨fun hin => reply_of_regRead ha hin (le32_eq_le32Or _ _ _ _),
      fun hin => ⟨_, step_of_regWrite ha nofun hin, rfl, fun _ => lookup_storeRange_le32Bytes_lane s.mem (4 * w) v,
        fun _ => lookup_storeRange_le32Bytes_outside s.mem (4 * w) v⟩⟩

end Sys2Proof.Machine
end

section
/-! PROOF. The command word (30_encoding.md R60, R61, R63): the decoder accepts exactly the listed words, and an unlisted
word written to `CMD` leaves `ERR_OP` behind, which no later command sees. -/

namespace Sys2Proof.Machine

/-! ### The listed words -/

theorem opcodeInstr_eq_some_iff (op : Byte) (i : Instr) : opcodeInstr op = some i ↔ op = encodeOpcode i := by
  constructor
  · intro h
    unfold opcodeInstr at h
    split at h
    case h_16 => cases h
    all_goals
      next hop =>
        obtain rfl := Option.some.inj h
        exact BitVec.eq_of_toNat_eq hop
  · rintro rfl
    cases i <;> rfl

/-- A command word is its two fields (R60). -/
theorem eq_encode_iff (w : Word) (i : Instr) : w = encode i ↔ zeroField w = 0#24 ∧ opcodeField w = encodeOpcode i := by
  constructor
  · rintro rfl
    exact ⟨BitVec.extractLsb'_append_eq_left, BitVec.extractLsb'_append_eq_right⟩
  · rintro ⟨hzero, hop⟩
    have hfields : zeroField w ++ opcodeField w = w.extractLsb' 0 32 :=
      BitVec.extractLsb'_append_extractLsb'_eq_extractLsb' rfl
    rw [encode, ← hzero, ← hop, hfields, BitVec.extractLsb'_eq_self]

theorem mem_commandTable_iff (w : Word) (i : Instr) : (w, i) ∈ commandTable ↔ w = encode i := by
  have hrows : ∀ row ∈ commandTable, row.1 = encode row.2 := by decide
  have hlisted : (encode i, i) ∈ commandTable := by cases i <;> decide
  exact ⟨fun h => hrows _ h, fun h => h ▸ hlisted⟩

theorem decode_eq_ok_iff (w : Word) (i : Instr) :
    decode w = .ok i ↔ zeroField w = 0#24 ∧ opcodeField w = encodeOpcode i := by
  rw [← opcodeInstr_eq_some_iff, decode]
  by_cases hzero : zeroField w = 0#24
  · cases hop : opcodeInstr (opcodeField w) <;> simp [hzero]
  · simp [hzero]

/-- The decoder answers a command exactly for its word in the table of R61. -/
theorem decode_eq_ok_iff_mem_commandTable (w : Word) (i : Instr) : decode w = .ok i ↔ (w, i) ∈ commandTable := by
  rw [decode_eq_ok_iff, mem_commandTable_iff, eq_encode_iff]

/-- R63: the unlisted words are those with a non-zero `ZERO` field or an unused opcode. -/
theorem forall_notMem_commandTable_iff (w : Word) :
    (∀ i, (w, i) ∉ commandTable) ↔ zeroField w ≠ 0#24 ∨ ∀ i, opcodeField w ≠ encodeOpcode i := by
  simp only [mem_commandTable_iff, eq_encode_iff, not_and_or, forall_or_left, ne_eq]

/-! ### Writing an unlisted word -/

theorem issue_of_unlisted {w : Word} (s : State) (hw : ∀ i, (w, i) ∉ commandTable) :
    issue w s = .next (s.raise .errOp) := by
  rcases issue_cases w s with ⟨i, -, hd, -, -⟩ | ⟨-, e⟩
  · exact absurd ((decode_eq_ok_iff_mem_commandTable w i).mp hd) (hw i)
  · exact e

theorem step_of_unlisted {s : State} {w : Word} {rest : List Event} (hin : s.inbox = .write 32 0x0C w :: rest)
    (hw : ∀ i, (w, i) ∉ commandTable) :
    step s = .next ((State.raise { s with inbox := rest } .errOp).answered (.write .okay)) := by
  rw [step_of_inbox hin, serve]
  simp only [serveWrite, accessReg_cmd, issue_of_unlisted _ hw, answerOutcome]

/-! ### The code an earlier command left behind -/

section OldCode

variable (s : State) (old : Code)

theorem State.srcBytes_raise (h n : Nat) : (s.raise old).srcBytes h n = s.srcBytes h n :=
  State.memRead_congr (State.raise_mem s old) (State.raise_draws s old) _ _

theorem rc4CrcOpen_raise (key : List Byte) (h : Nat) : rc4CrcOpen key h (s.raise old) = rc4CrcOpen key h s := by
  simp only [rc4CrcOpen, State.srcBytes_raise]
  rfl

theorem tkipDecrypt_raise : tkipDecrypt (s.raise old) = tkipDecrypt s := by
  simp only [tkipDecrypt, rc4CrcOpen_raise]
  rfl

theorem ccmpDecrypt_raise : ccmpDecrypt (s.raise old) = ccmpDecrypt s := by
  simp only [ccmpDecrypt, State.srcBytes_raise]
  rfl

/-- No command reads the old code, and each overwrites it (10_state.md R15). -/
theorem exec_raise (i : Instr) : exec i (s.raise old) = exec i s := by
  cases i with
  | nop | srst | crcInit | crcPut | icsInit | icsPut | rc4Ksa | bsel => rfl
  | crcUpd =>
    simp only [exec, execCrcUpd, State.srcBytes_raise]
    rfl
  | icsUpd =>
    simp only [exec, execIcsUpd, State.srcBytes_raise]
    rfl
  | rc4Xor =>
    simp only [exec, execRc4Xor, State.srcBytes_raise]
    rfl
  | wepDec =>
    simp only [exec, execWepDec, rc4CrcOpen_raise]
    rfl
  | wpaDec => simp only [exec, execWpaDec, State.raise_cipher, ccmpDecrypt_raise, tkipDecrypt_raise]
  | tkipDec => simp only [exec, execTkipDec, tkipDecrypt_raise]
  | ccmpDec => simp only [exec, execCcmpDec, ccmpDecrypt_raise]

end OldCode

/-- Settles O6: the table lists exactly the words whose fields are right, an unlisted word raises `ERR_OP`
(`step_of_unlisted`), and no command reads the old code (`exec_raise`). -/
theorem unlistedWordReportsErrOp : Obligations.UnlistedWordReportsErrOp :=
  ⟨forall_notMem_commandTable_iff, fun _ _ _ hin hw => step_of_unlisted hin hw, fun s i => exec_raise s .errOp i⟩

end Sys2Proof.Machine
end

section
/-! PROOF. The CRC-32 generator (40_crc32.md), and the commands that complete in every state: the remainder is linear over
GF(2) (R75), so that four bytes accumulate as one word, which fixes the residue (R71). -/

namespace Sys2Proof.Machine

/-! ### The shift of R70 over GF(2) -/

theorem crcShift_of_even {x : Word} (h : x.getLsbD 0 = false) : crcShift x = x >>> 1 := by
  rw [crcShift, h, if_neg Bool.false_ne_true]

theorem crcShift_of_odd {x : Word} (h : x.getLsbD 0 = true) : crcShift x = x >>> 1 ^^^ 0xEDB88320#32 := by
  rw [crcShift, if_pos h]

/-- One shift is linear: the generator is xored in for one of the two words, for both (and cancels), or for none. -/
theorem crcShift_xor (x y : Word) : crcShift (x ^^^ y) = crcShift x ^^^ crcShift y := by
  have hxy : (x ^^^ y).getLsbD 0 = (x.getLsbD 0 ^^ y.getLsbD 0) := BitVec.getLsbD_xor
  cases hx : x.getLsbD 0 <;> cases hy : y.getLsbD 0 <;> rw [hx, hy] at hxy
  case false.false =>
    rw [crcShift_of_even hxy, crcShift_of_even hx, crcShift_of_even hy, BitVec.ushiftRight_xor_distrib]
  case false.true =>
    rw [crcShift_of_odd hxy, crcShift_of_even hx, crcShift_of_odd hy, BitVec.ushiftRight_xor_distrib, BitVec.xor_assoc]
  case true.false =>
    rw [crcShift_of_odd hxy, crcShift_of_odd hx, crcShift_of_even hy, BitVec.ushiftRight_xor_distrib, BitVec.xor_assoc,
      BitVec.xor_assoc, BitVec.xor_comm (y >>> 1)]
  case true.true =>
    rw [crcShift_of_even hxy, crcShift_of_odd hx, crcShift_of_odd hy, BitVec.ushiftRight_xor_distrib]
    ac_nf
    simp

theorem repeat_crcShift_xor (n : Nat) (x y : Word) :
    Nat.repeat crcShift n (x ^^^ y) = Nat.repeat crcShift n x ^^^ Nat.repeat crcShift n y := by
  induction n with
  | zero => rfl
  | succ n ih => rw [Nat.repeat, ih, crcShift_xor]; rfl

/-- Shifting out zeros never xors the generator in. -/
theorem repeat_crcShift_of_lowBits_zero (n : Nat) (x : Word) (h : ∀ k, k < n → x.getLsbD k = false) :
    Nat.repeat crcShift n x = x >>> n := by
  induction n with
  | zero => simp [Nat.repeat]
  | succ n ih =>
    have hn : (x >>> n).getLsbD 0 = false := by simpa using h n (by omega)
    rw [Nat.repeat, ih fun k hk => h k (by omega), crcShift_of_even hn, BitVec.shiftRight_add]

/-- `crcShift` repeated in two pieces. -/
theorem repeat_crcShift_add (m n : Nat) (x : Word) :
    Nat.repeat crcShift (m + n) x = Nat.repeat crcShift n (Nat.repeat crcShift m x) := by
  induction n with
  | zero => rfl
  | succ n ih => rw [← Nat.add_assoc, Nat.repeat, ih]; rfl

/-- `crc_step` of the low byte of a word: eight shifts take in that byte and leave the rest of the word in place. -/
theorem repeat_crcShift_eight_xor (acc w : Word) :
    Nat.repeat crcShift 8 (acc ^^^ w) = crcStep acc (byteLane w 0) ^^^ w >>> 8 := by
  have hsplit : w = (byteLane w 0).setWidth 32 ^^^ (w >>> 8) <<< 8 := by
    ext k hk
    by_cases h : k < 8
    · simp [byteLane, h, hk]
    · simp [byteLane, h, hk, show 8 + (k - 8) = k by omega]
  have hrest : (w >>> 8) <<< 8 >>> 8 = w >>> 8 := by
    ext k hk
    simpa using fun h : w.getLsbD (8 + k) = true => BitVec.lt_of_getLsbD h
  calc Nat.repeat crcShift 8 (acc ^^^ w)
      = Nat.repeat crcShift 8 (acc ^^^ (byteLane w 0).setWidth 32 ^^^ (w >>> 8) <<< 8) := by
        rw [BitVec.xor_assoc, ← hsplit]
    _ = crcStep acc (byteLane w 0) ^^^ Nat.repeat crcShift 8 ((w >>> 8) <<< 8) := repeat_crcShift_xor 8 _ _
    _ = crcStep acc (byteLane w 0) ^^^ w >>> 8 := by
        rw [repeat_crcShift_of_lowBits_zero 8 _ fun k hk => by simp [hk], hrest]

theorem byteLane_shiftRight (w : Word) (n : Nat) : byteLane (w >>> (8 * n)) 0 = byteLane w n := by
  ext k hk
  simp [byteLane]

/-- Accumulating the low `n` bytes of a word is shifting the whole word through the remainder. -/
theorem repeat_crcShift_xor_word (n : Nat) (acc w : Word) :
    Nat.repeat crcShift (8 * n) (acc ^^^ w) = crcUpd acc ((List.range n).map (byteLane w)) ^^^ w >>> (8 * n) := by
  induction n with
  | zero => simp [crcUpd, Nat.repeat]
  | succ n ih =>
    rw [Nat.mul_succ, repeat_crcShift_add, ih, repeat_crcShift_eight_xor, byteLane_shiftRight, BitVec.shiftRight_add,
      List.range_succ, List.map_append, crcUpd_append]
    rfl

theorem crcUpd_le32Bytes (acc w : Word) : crcUpd acc (le32Bytes w) = Nat.repeat crcShift 32 (acc ^^^ w) := by
  have h := repeat_crcShift_xor_word 4 acc w
  rw [BitVec.ushiftRight_eq_zero (by decide), BitVec.xor_zero] at h
  exact h.symm

/-! ### The value of a sequence and its residue (R71) -/

theorem crcVal_crcInit : crcVal crcInit = 0#32 := by decide

/-- The residue: a remainder followed by its own complement has shifted in all ones, whatever it was. -/
theorem crcUpd_trailer (acc : Word) : crcUpd acc (le32Bytes (crcVal acc)) = 0xDEBB20E3#32 := by
  have hones : acc ^^^ crcVal acc = 0xFFFFFFFF#32 := by
    rw [crcVal, ← BitVec.xor_assoc, BitVec.xor_self, BitVec.zero_xor]
  have hrun : Nat.repeat crcShift 32 0xFFFFFFFF#32 = 0xDEBB20E3#32 := by simp [Nat.repeat, crcShift]
  rw [crcUpd_le32Bytes, hones, hrun]

/-- The remainder after the check string `123456789` (R73). -/
theorem crcUpd_checkString :
    crcUpd crcInit [0x31#8, 0x32#8, 0x33#8, 0x34#8, 0x35#8, 0x36#8, 0x37#8, 0x38#8, 0x39#8] = 0x340BC6D9#32 := by
  simp [crcUpd, crcInit, crcStep, Nat.repeat, crcShift]

/-- Settles O20: the remainder of `x` is followed by its own complement (`crcUpd_trailer`). -/
theorem crcResidueIsConstant : Obligations.CrcResidueIsConstant := by
  have hresidue (x : List Byte) : crcUpd crcInit (x ++ le32Bytes (crc32 x)) = 0xDEBB20E3#32 := by
    rw [crcUpd_append, crc32, crcUpd_trailer]
  refine ⟨fun _ => rfl, crcVal_crcInit, ?_, fun x => ⟨rfl, hresidue x, ?_⟩⟩
  · rw [crc32, crcUpd_checkString]
    decide
  · rw [crc32, hresidue]
    decide

/-! ### `CRC_UPD` (R73) -/

/-- `crc_step` written as the loop of R70. -/
theorem crcUpd_singleton (acc : Word) (b : Byte) :
    crcUpd acc [b] = (List.range 8).foldl (fun a _ => crcShift a) (acc ^^^ b.setWidth 32) := rfl

theorem exec_crcUpd_of_fits {s : State} (h : s.src.toNat + s.len.toNat ≤ s.cfg.memSize) :
    exec .crcUpd s
      = .next { s with crcAcc := crcUpd s.crcAcc (s.bytes s.src.toNat s.len.toNat), status := .ok } := by
  have hfits := (s.srcFits_iff _).mpr h
  simp only [exec, execCrcUpd, if_pos hfits, State.srcBytes_eq_bytes, Nat.add_zero]
  rfl

theorem exec_crcUpd_of_not_fits {s : State} (h : s.cfg.memSize < s.src.toNat + s.len.toNat) :
    exec .crcUpd s = .next (s.raise .errRange) := by
  have hfits : ¬ s.srcFits s.len.toNat = true := by
    rw [State.srcFits_iff]
    omega
  simp only [exec, execCrcUpd, if_neg hfits]

/-- Settles O17: the law of concatenation, one byte, the example, and the command on both sides of the range check. -/
theorem crcUpdAccumulatesTheSourceRange : Obligations.CrcUpdAccumulatesTheSourceRange :=
  ⟨rfl, fun acc x y => ⟨rfl, crcUpd_append acc x y⟩, crcUpd_singleton, crcUpd_checkString, fun _ => rfl,
    fun _ => ⟨exec_crcUpd_of_fits, exec_crcUpd_of_not_fits⟩⟩

/-! ### `CRC_PUT` (R74) -/

theorem exec_crcPut_of_fits {s : State} (h : s.dst.toNat + 4 ≤ s.cfg.memSize) :
    exec .crcPut s = .next (s.dstWrite (le32Bytes (crcVal s.crcAcc))).done := by
  have hfits := (s.dstFits_iff 4).mpr h
  simp only [exec, execCrcPut, if_pos hfits]

theorem exec_crcPut_of_not_fits {s : State} (h : s.cfg.memSize < s.dst.toNat + 4) :
    exec .crcPut s = .next (s.raise .errRange) := by
  have hfits : ¬ s.dstFits 4 = true := by
    rw [State.dstFits_iff]
    omega
  simp only [exec, execCrcPut, if_neg hfits]

/-- A word stored at `DST` by a command that ends in `OK` reads back lane by lane. -/
theorem byteAt_dstWrite_le32Bytes_lane (s : State) (w : Word) {k : Nat} (hk : k < 4) :
    (s.dstWrite (le32Bytes w)).done.byteAt (s.dst.toNat + k) = byteLane w k := by
  have hlookup : (s.dstWrite (le32Bytes w)).done.mem.lookup (s.dst.toNat + k) = some (byteLane w k) :=
    lookup_storeRange_le32Bytes_lane s.mem s.dst.toNat w hk
  simp only [State.byteAt, hlookup]

/-- A command that stores `v` at `DST` and ends in `OK` leaves every byte outside `v` alone (R189). -/
theorem sameOutside_dstWrite_done (s : State) (v : List Byte) :
    sameOutside s (s.dstWrite v).done s.dst.toNat v.length := by
  intro x hx
  have hdone : (s.dstWrite v).done.byteAt x = (s.dstWrite v).byteAt x := State.byteAt_congr rfl rfl x
  rw [hdone, State.byteAt_dstWrite, dif_neg (by omega)]

/-- Settles O19: the stored bytes are the trailer of the remainder (`crcUpd_trailer`), put at `DST` lane by lane. -/
theorem crcPutStoresTheTrailer : Obligations.CrcPutStoresTheTrailer :=
  ⟨rfl, crcUpd_trailer, rfl, fun s => ⟨fun h => ⟨_, exec_crcPut_of_fits h, rfl,
    fun _ hk => byteAt_dstWrite_le32Bytes_lane s (crcVal s.crcAcc) hk, sameOutside_dstWrite_done s _⟩,
    exec_crcPut_of_not_fits⟩⟩

/-! ### The commands that complete in every state -/

theorem exec_crcInit (s : State) : exec .crcInit s = .next { s with crcAcc := crcInit, status := .ok } := rfl

theorem exec_icsInit (s : State) :
    exec .icsInit s = .next { s with icsSum := 0#16, icsPhase := false, status := .ok } := rfl

theorem icsAccWord_zero : icsAccWord 0#16 false = 0#32 := by decide

theorem icsVal_zero : icsVal 0#16 = 0xFFFF#16 := by decide

/-- Settles O16: the three commands check nothing, and what the registers read follows from the accumulators they set. -/
theorem nopAndInitCommandsComplete : Obligations.NopAndInitCommandsComplete := by
  refine ⟨rfl, rfl, rfl, fun s => ⟨rfl, exec_crcInit s, exec_icsInit s, fun t ht => ?_, fun t ht => ?_⟩⟩
  · obtain rfl := Host.Outcome.next.inj ((exec_crcInit s).symm.trans ht)
    exact crcVal_crcInit
  · obtain rfl := Host.Outcome.next.inj ((exec_icsInit s).symm.trans ht)
    exact ⟨icsAccWord_zero, congrArg (BitVec.setWidth 32) icsVal_zero⟩

end Sys2Proof.Machine
end

section
/-! PROOF. The Internet checksum unit (41_inet_checksum.md): one's-complement addition is addition modulo 65535 in which only
two zeros add up to zero (R85), and the two commands over the buffer on both sides of their range check (R83, R84). -/

namespace Sys2Proof.Machine

/-! ### One's-complement addition (R80, R85) -/

/-- The end-around carry in natural numbers: a sum that needs the 17th bit loses 65536 and gains 1. -/
theorem ocAdd_toNat (a w : Half) :
    (ocAdd a w).toNat
      = if a.toNat + w.toNat < 65536 then a.toNat + w.toNat else a.toNat + w.toNat - 65535 := by
  have ha := a.isLt
  have hw := w.isLt
  have hsum : (a.setWidth 17 + w.setWidth 17).toNat = a.toNat + w.toNat := by
    rw [BitVec.toNat_add, BitVec.toNat_setWidth, BitVec.toNat_setWidth]
    omega
  have hcarry : (ocAdd a w).toNat
      = ((a.toNat + w.toNat) % 65536 + (a.toNat + w.toNat) / 65536 % 2) % 65536 := by
    simp [ocAdd, hsum, Nat.shiftRight_eq_div_pow]
  rw [hcarry]
  split <;> omega

theorem ocAdd_comm (a b : Half) : ocAdd a b = ocAdd b a := by
  apply BitVec.eq_of_toNat_eq
  rw [ocAdd_toNat, ocAdd_toNat, Nat.add_comm]

theorem ocAdd_modEq (a w : Half) : (ocAdd a w).toNat ≡ a.toNat + w.toNat [MOD 65535] := by
  rw [ocAdd_toNat, Nat.ModEq]
  split <;> omega

/-- A folded carry leaves at least 1, so that only zeros add up to zero (R81). -/
theorem ocAdd_eq_zero_iff (a w : Half) : ocAdd a w = 0#16 ↔ a = 0#16 ∧ w = 0#16 := by
  simp only [← BitVec.toNat_inj, ocAdd_toNat, BitVec.toNat_ofNat]
  split <;> omega

/-- Modulo 65535 the two zeros `0x0000` and `0xFFFF` are the only values not told apart. -/
theorem eq_of_modEq_of_zero_iff {a b : Half} (hmod : a.toNat ≡ b.toNat [MOD 65535]) (hzero : a = 0#16 ↔ b = 0#16) :
    a = b := by
  have ha := a.isLt
  have hb := b.isLt
  simp only [← BitVec.toNat_inj, BitVec.toNat_ofNat, Nat.ModEq] at hmod hzero ⊢
  omega

/-- Addition modulo 65535 is associative, and a sum of three is zero when all three are, however they are grouped. -/
theorem ocAdd_assoc (a b c : Half) : ocAdd (ocAdd a b) c = ocAdd a (ocAdd b c) := by
  apply eq_of_modEq_of_zero_iff
  · calc (ocAdd (ocAdd a b) c).toNat
        ≡ (ocAdd a b).toNat + c.toNat [MOD 65535] := ocAdd_modEq _ c
      _ ≡ a.toNat + b.toNat + c.toNat [MOD 65535] := (ocAdd_modEq a b).add_right _
      _ = a.toNat + (b.toNat + c.toNat) := Nat.add_assoc _ _ _
      _ ≡ a.toNat + (ocAdd b c).toNat [MOD 65535] := (ocAdd_modEq b c).symm.add_left _
      _ ≡ (ocAdd a (ocAdd b c)).toNat [MOD 65535] := (ocAdd_modEq a _).symm
  · simp only [ocAdd_eq_zero_iff, and_assoc]

@[simp] theorem ocAdd_zero (a : Half) : ocAdd a 0#16 = a := by
  apply BitVec.eq_of_toNat_eq
  rw [ocAdd_toNat, if_pos (by simpa using a.isLt)]
  simp

@[simp] theorem zero_ocAdd (a : Half) : ocAdd 0#16 a = a := by
  rw [ocAdd_comm, ocAdd_zero]

/-- `0xFFFF` is the other zero: its carry comes back around as the 1 it lacks. -/
theorem ocAdd_allOnes_of_ne_zero {a : Half} (h : a ≠ 0#16) : ocAdd a 0xFFFF#16 = a := by
  have hpos : a.toNat ≠ 0 := fun h0 => h (BitVec.eq_of_toNat_eq h0)
  apply BitVec.eq_of_toNat_eq
  rw [ocAdd_toNat, show (0xFFFF#16).toNat = 65535 from rfl, if_neg (by omega), Nat.add_sub_cancel]

/-- Settles O25: every law follows from the value in natural numbers (`ocAdd_toNat`). -/
theorem onesComplementAdditionLaws : Obligations.OnesComplementAdditionLaws :=
  ⟨ocAdd_toNat, ocAdd_comm, ocAdd_assoc, fun a => ⟨ocAdd_zero a, zero_ocAdd a⟩, fun _ => ocAdd_allOnes_of_ne_zero,
    zero_ocAdd _, ocAdd_allOnes_of_ne_zero (by decide), (ocAdd_comm _ _).trans (ocAdd_allOnes_of_ne_zero (by decide)),
    by decide, ocAdd_zero _⟩

/-! ### `ICS_UPD` (R83) -/

/-- Each byte toggles the phase. -/
theorem icsUpd_phase (sum : Half) (phase : Bool) (x : List Byte) :
    (icsUpd sum phase x).2 = if x.length % 2 = 1 then !phase else phase := by
  induction x generalizing sum phase with
  | nil => rfl
  | cons b x ih =>
    rw [icsUpd, ih, List.length_cons]
    rcases Nat.mod_two_eq_zero_or_one x.length with h | h
    · rw [if_neg (by omega), if_pos (by omega)]
    · rw [if_pos h, if_neg (by omega), Bool.not_not]

theorem exec_icsUpd_of_fits {s : State} (h : s.src.toNat + s.len.toNat ≤ s.cfg.memSize) :
    exec .icsUpd s
      = .next { s with
          icsSum := (icsUpd s.icsSum s.icsPhase (s.bytes s.src.toNat s.len.toNat)).1
          icsPhase := if s.len.toNat % 2 = 1 then !s.icsPhase else s.icsPhase
          status := .ok } := by
  have hfits := (s.srcFits_iff _).mpr h
  have hphase := icsUpd_phase s.icsSum s.icsPhase (s.bytes s.src.toNat s.len.toNat)
  rw [State.bytes_length] at hphase
  simp only [exec, execIcsUpd, if_pos hfits, State.srcBytes_eq_bytes, Nat.add_zero, hphase]
  rfl

theorem exec_icsUpd_of_not_fits {s : State} (h : s.cfg.memSize < s.src.toNat + s.len.toNat) :
    exec .icsUpd s = .next (s.raise .errRange) := by
  have hfits := mt (s.srcFits_iff _).mp (Nat.not_le.mpr h)
  simp only [exec, execIcsUpd, if_neg hfits]

/-- Settles O23: the example of RFC 1071 word by word, and the command on both sides of the range check. -/
theorem icsUpdAccumulatesTheSourceRange : Obligations.IcsUpdAccumulatesTheSourceRange :=
  ⟨rfl, by decide, by decide, by decide, by decide, by decide,
    fun _ => ⟨exec_icsUpd_of_fits, exec_icsUpd_of_not_fits⟩⟩

/-! ### `ICS_PUT` (R84) -/

theorem exec_icsPut_of_fits {s : State} (h : s.dst.toNat + 2 ≤ s.cfg.memSize) :
    exec .icsPut s = .next (s.dstWrite (be16Bytes (icsVal s.icsSum))).done := by
  have hfits := (s.dstFits_iff 2).mpr h
  simp only [exec, execIcsPut, if_pos hfits]

theorem exec_icsPut_of_not_fits {s : State} (h : s.cfg.memSize < s.dst.toNat + 2) :
    exec .icsPut s = .next (s.raise .errRange) := by
  have hfits := mt (s.dstFits_iff _).mp (Nat.not_le.mpr h)
  simp only [exec, execIcsPut, if_neg hfits]

/-- What a command stores at `DST` before it ends in `OK` reads back byte by byte. -/
theorem byteAt_dstWrite_done (s : State) (v : List Byte) {k : Nat} (hk : k < v.length) :
    (s.dstWrite v).done.byteAt (s.dst.toNat + k) = v[k] := by
  have hdone : (s.dstWrite v).done.byteAt (s.dst.toNat + k) = (s.dstWrite v).byteAt (s.dst.toNat + k) :=
    State.byteAt_congr rfl rfl _
  rw [hdone, State.byteAt_dstWrite, dif_pos (by omega)]
  congr 1
  omega

/-- The sum of the example header with its checksum field zeroed. -/
theorem icsUpd_headerWithoutChecksum : (icsUpd 0#16 false (exampleHeader [0x00#8, 0x00#8])).1 = 0x479E#16 := by
  simp [exampleHeader, icsUpd, icsWord, ocAdd]

/-- The header with its checksum in the field validates (R81). -/
theorem icsUpd_headerWithChecksum : (icsUpd 0#16 false (exampleHeader [0xB8#8, 0x61#8])).1 = 0xFFFF#16 := by
  simp [exampleHeader, icsUpd, icsWord, ocAdd]

/-- Settles O24: the example header without and with its checksum, and the two bytes of the complemented sum put at `DST`. -/
theorem icsPutStoresTheChecksum : Obligations.IcsPutStoresTheChecksum := by
  refine ⟨rfl, icsUpd_headerWithoutChecksum, by decide, icsUpd_headerWithChecksum,
    fun s => ⟨fun h => ?_, exec_icsPut_of_not_fits⟩⟩
  have hbyte (k : Nat) (hk : k < 2) := byteAt_dstWrite_done s (be16Bytes (icsVal s.icsSum)) hk
  exact ⟨_, exec_icsPut_of_fits h, rfl, hbyte 0 (by decide), hbyte 1 (by decide), sameOutside_dstWrite_done s _⟩

end Sys2Proof.Machine
end

section
/-! PROOF. The RC4 engine (42_rc4.md R90): the key schedule as a sequence of exchanges, one keystream byte, and the exclusive
or, which continues one keystream over two pieces and undoes itself. -/

namespace Sys2Proof.Machine

/-! ### Exchanges -/

@[simp] theorem sboxAt_identity (k : Byte) : sboxAt Rc4.identity k = k := by
  simp [sboxAt, Rc4.identity]

/-- Two boxes with the same entry at every byte are the same. -/
theorem sboxAt_ext {v w : Vector Byte 256} (h : ∀ k, sboxAt v k = sboxAt w k) : v = w := by
  apply Vector.ext
  intro n hn
  simpa [sboxAt, Nat.mod_eq_of_lt hn] using h (BitVec.ofNat 8 n)

/-- The entries of a box after a swap. The order of the two tests is free: at `a = b` both give the old entry. -/
theorem sboxAt_sboxSwap (v : Vector Byte 256) (a b k : Byte) :
    sboxAt (sboxSwap v a b) k = if k = a then sboxAt v b else if k = b then sboxAt v a else sboxAt v k := by
  simp only [sboxAt, sboxSwap, Vector.getElem_swap, BitVec.toNat_inj]

theorem exchanged_sboxSwap (v : Vector Byte 256) (a b : Byte) : exchanged v (sboxSwap v a b) a b := by
  refine ⟨?_, ?_, fun k ha hb => ?_⟩
  · rw [sboxAt_sboxSwap, if_pos rfl]
  · rw [sboxAt_sboxSwap, if_pos rfl]
    split
    case isTrue hba => rw [hba]
    case isFalse => rfl
  · rw [sboxAt_sboxSwap, if_neg ha, if_neg hb]

/-- An exchange of an entry with itself changes nothing. -/
theorem eq_of_exchanged_self {before after : Vector Byte 256} {a : Byte} (h : exchanged before after a a) :
    after = before := by
  obtain ⟨hself, -, hother⟩ := h
  refine sboxAt_ext fun k => ?_
  by_cases hk : k = a
  · rw [hk, hself]
  · exact hother k hk hk

/-! ### The key schedule -/

/-- `S` after the first `n` steps of the key schedule; `scheduleIndex` is the `j` beside it. -/
def scheduleBox (key : List Byte) (n : Nat) : Vector Byte 256 :=
  ((List.range n).foldl (rc4KsaStep key) (Rc4.identity, 0#8)).1

/-- The schedule keeps the box after step 255 and restarts both indices. -/
theorem rc4Ksa_eq_scheduleBox (key : List Byte) : rc4Ksa key = { s := scheduleBox key 256, i := 0#8, j := 0#8 } := rfl

/-- `n + 1` steps are `n` steps and one more, with `k = n`. -/
theorem schedule_succ (key : List Byte) (n : Nat) :
    (scheduleBox key (n + 1), scheduleIndex key (n + 1)) = rc4KsaStep key (scheduleBox key n, scheduleIndex key n) n := by
  simp only [scheduleBox, scheduleIndex, List.range_succ, List.foldl_concat]

theorem scheduleIndex_succ (key : List Byte) (n : Nat) :
    scheduleIndex key (n + 1)
      = scheduleIndex key n + sboxAt (scheduleBox key n) (BitVec.ofNat 8 n) + key.getD (n % key.length) 0#8 :=
  congrArg Prod.snd (schedule_succ key n)

/-- The swap of step `n` is with the `j` of that same step. -/
theorem scheduleBox_succ (key : List Byte) (n : Nat) :
    scheduleBox key (n + 1) = sboxSwap (scheduleBox key n) (BitVec.ofNat 8 n) (scheduleIndex key (n + 1)) := by
  rw [scheduleIndex_succ]
  exact congrArg Prod.fst (schedule_succ key n)

theorem scheduleIndex_succ_toNat (key : List Byte) (n : Nat) :
    (scheduleIndex key (n + 1)).toNat
      = ((scheduleIndex key n).toNat + (sboxAt (scheduleBox key n) (BitVec.ofNat 8 n)).toNat
          + (key.getD (n % key.length) 0#8).toNat) % 256 := by
  simp only [scheduleIndex_succ, BitVec.toNat_add, Nat.mod_add_mod, Nat.reducePow]

theorem scheduleBox_exchanged (key : List Byte) (n : Nat) :
    exchanged (scheduleBox key n) (scheduleBox key (n + 1)) (BitVec.ofNat 8 n) (scheduleIndex key (n + 1)) := by
  rw [scheduleBox_succ]
  exact exchanged_sboxSwap _ _ _

/-! ### One keystream byte -/

theorem rc4Next_i (r : Rc4) : (rc4Next r).2.i.toNat = (r.i.toNat + 1) % 256 := BitVec.toNat_add _ _

theorem rc4Next_j (r : Rc4) :
    (rc4Next r).2.j.toNat = (r.j.toNat + (sboxAt r.s (rc4Next r).2.i).toNat) % 256 := BitVec.toNat_add _ _

theorem rc4Next_exchanged (r : Rc4) : exchanged r.s (rc4Next r).2.s (rc4Next r).2.i (rc4Next r).2.j :=
  exchanged_sboxSwap _ _ _

/-- The output byte stands at the sum of the two entries as they are after the exchange. -/
theorem rc4Next_byte (r : Rc4) :
    (rc4Next r).1 = sboxAt (rc4Next r).2.s (BitVec.ofNat 8
      (((sboxAt (rc4Next r).2.s (rc4Next r).2.i).toNat + (sboxAt (rc4Next r).2.s (rc4Next r).2.j).toNat) % 256)) := by
  have hindex (a b : Byte) : BitVec.ofNat 8 ((a.toNat + b.toNat) % 256) = a + b :=
    BitVec.eq_of_toNat_eq (by simp [BitVec.toNat_add])
  rw [hindex]
  rfl

theorem rc4Next_perm (r : Rc4) : (rc4Next r).2.s.toList.Perm r.s.toList := rc4Advance_perm 1 r

/-! ### The exclusive or -/

theorem rc4Xor_getD (r : Rc4) (x : List Byte) {k : Nat} (hk : k < x.length) :
    (rc4Xor r x).1.getD k 0#8 = x.getD k 0#8 ^^^ rc4StreamByte r k := by
  have hk' : k < (rc4Xor r x).1.length := by rwa [rc4Xor_length]
  rw [List.getD_eq_getElem _ _ hk', List.getD_eq_getElem _ _ hk, rc4Xor_getElem]

/-- Encryption and decryption are one operation: the same keystream twice cancels. -/
theorem rc4Xor_rc4Xor (r : Rc4) (x : List Byte) : (rc4Xor r (rc4Xor r x).1).1 = x := by
  apply List.ext_getElem
  · rw [rc4Xor_length, rc4Xor_length]
  · intro k _ _
    rw [rc4Xor_getElem, rc4Xor_getElem, BitVec.xor_assoc, BitVec.xor_self, BitVec.xor_zero]

/-- The second piece continues the keystream where the first one stopped. -/
theorem rc4Xor_append (r : Rc4) (x y : List Byte) :
    rc4Xor r (x ++ y) = ((rc4Xor r x).1 ++ (rc4Xor (rc4Xor r x).2 y).1, (rc4Xor (rc4Xor r x).2 y).2) := by
  induction x generalizing r with
  | nil => rfl
  | cons b x ih => simp only [List.cons_append, rc4Xor, ih]

/-- Settles O56: the schedule is the sequence of `scheduleBox` and `scheduleIndex`, and the laws of the keystream and of the
exclusive or are those above. -/
theorem rc4ScheduleAndKeystream : Obligations.Rc4ScheduleAndKeystream := by
  refine ⟨fun key _ _ => ?schedule, ?next, fun r x => ?xor, rc4Xor_append, fun _ _ _ => eq_of_exchanged_self⟩
  case schedule =>
    exact ⟨scheduleBox key, scheduleIndex key, sboxAt_identity, rfl,
      fun n _ => ⟨scheduleIndex_succ_toNat key n, scheduleBox_exchanged key n⟩, rc4Ksa_eq_scheduleBox key, rc4Ksa_perm key⟩
  case next =>
    intro r t z h
    obtain ⟨rfl, rfl⟩ := Prod.mk.inj h
    exact ⟨rc4Next_i r, rc4Next_j r, rc4Next_exchanged r, rc4Next_byte r, (rc4Next_perm r).trans⟩
  case xor =>
    exact ⟨rc4Xor_length r x, rc4Xor_state r x, fun _ => rc4Xor_getD r x, rc4Xor_rc4Xor r x⟩

end Sys2Proof.Machine
end

section
/-! PROOF. BSSID selection (43_wep.md R100), and the open step of R102 as a command reaches it: the frame's key, the commit of
the plaintext, and that no pipeline command reads `BSSID`. -/

namespace Sys2Proof.Machine

/-! ### `BSEL` (R100) -/

theorem exec_bsel (s : State) : exec .bsel s = .next { s with bssid := selectBssid s, status := .ok } := rfl

/-- Two equal DS bits select `A3`; otherwise to-DS selects `A1` and from-DS selects `A2`. -/
theorem selectBssid_eq_ite (s : State) :
    selectBssid s = if s.fc.getLsbD 8 = s.fc.getLsbD 9 then s.a3 else if s.fc.getLsbD 8 then s.a1 else s.a2 := by
  simp only [selectBssid, toDs, fromDs]
  cases s.fc.getLsbD 8 <;> cases s.fc.getLsbD 9 <;> rfl

/-! ### `BSSID` is read by no pipeline command -/

/-- The state with another `BSSID`. -/
def State.setBssid (s : State) (b : Addr) : State := { s with bssid := b }

section OtherBssid

variable (s : State) (b : Addr)

theorem State.setBssid_ite (p : Prop) [Decidable p] (t u : State) :
    (if p then t else u).setBssid b = if p then t.setBssid b else u.setBssid b :=
  apply_ite (State.setBssid · b) p t u

theorem State.setBssid_raisePipeline (c : Code) : (s.raisePipeline c).setBssid b = (s.setBssid b).raisePipeline c := rfl

theorem setBssid_commitPlaintext (p : List Byte) :
    (commitPlaintext s p).setBssid b = commitPlaintext (s.setBssid b) p := rfl

theorem State.srcBytes_setBssid (h n : Nat) : (s.setBssid b).srcBytes h n = s.srcBytes h n :=
  State.memRead_congr (s := s) (t := s.setBssid b) rfl rfl _ _

theorem wepKey_setBssid : wepKey (s.setBssid b) = wepKey s :=
  congrArg (· ++ s.keyBytes) (s.srcBytes_setBssid b 0 3)

theorem tkipKey_setBssid : tkipKey (s.setBssid b) = tkipKey s := rfl

theorem rc4CrcOpen_setBssid (key : List Byte) (h : Nat) :
    rc4CrcOpen key h (s.setBssid b) = (rc4CrcOpen key h s).setBssid b := by
  simp only [rc4CrcOpen, State.srcBytes_setBssid, State.setBssid_ite]
  rfl

theorem tkipDecrypt_setBssid : tkipDecrypt (s.setBssid b) = (tkipDecrypt s).setBssid b := by
  simp only [tkipDecrypt, tkipKey_setBssid, rc4CrcOpen_setBssid, State.setBssid_ite]
  rfl

theorem ccmpDecrypt_setBssid : ccmpDecrypt (s.setBssid b) = (ccmpDecrypt s).setBssid b := by
  simp only [ccmpDecrypt, State.srcBytes_setBssid, State.setBssid_ite]
  rfl

/-- A pipeline command neither reads `BSSID` nor writes it: another value goes in and comes out, and nothing else differs. -/
theorem exec_setBssid {i : Instr} {t : State} (hi : i.isPipeline = true) (h : exec i s = .next t) :
    exec i (s.setBssid b) = .next (t.setBssid b) := by
  cases i with
  | wepDec =>
    obtain rfl := Host.Outcome.next.inj h
    simp only [exec, execWepDec, wepKey_setBssid, rc4CrcOpen_setBssid, State.setBssid_ite]
    rfl
  | wpaDec =>
    have hcipher : (s.setBssid b).cipher = s.cipher := rfl
    cases hc : s.cipher with
    | tkip =>
      simp only [exec, execWpaDec, hcipher, hc, tkipDecrypt_setBssid] at h ⊢
      rw [Host.Outcome.next.inj h]
    | ccmp =>
      simp only [exec, execWpaDec, hcipher, hc, ccmpDecrypt_setBssid] at h ⊢
      rw [Host.Outcome.next.inj h]
  | tkipDec =>
    obtain rfl := Host.Outcome.next.inj h
    exact congrArg _ (tkipDecrypt_setBssid s b)
  | ccmpDec =>
    obtain rfl := Host.Outcome.next.inj h
    exact congrArg _ (ccmpDecrypt_setBssid s b)
  | nop | srst | crcInit | crcUpd | crcPut | icsInit | icsUpd | icsPut | rc4Ksa | rc4Xor | bsel => cases hi

end OtherBssid

/-- Settles O33: the four cases are `selectBssid_eq_ite`, and no pipeline command reads `BSSID` (`exec_setBssid`). -/
theorem bselSelectsByTheDsBits : Obligations.BselSelectsByTheDsBits := by
  refine ⟨rfl, fun s hfc ha1 => ⟨_, exec_bsel s, ?_⟩, fun i s t b => exec_setBssid s b, fun s => ?_⟩
  · have hsel : selectBssid s = #v[0x00#8, 0x11#8, 0x22#8, 0x33#8, 0x44#8, 0x55#8] := by
      simp [selectBssid_eq_ite, hfc, ha1]
    simp only [readReg, hsel]
    decide
  · simp +contextual [exec_bsel, selectBssid_eq_ite]

/-! ### The commit -/

theorem openPlain_length (s : State) (h : Nat) (key : List Byte) :
    (openPlain s h key).length = s.len.toNat - h - 4 := by
  simp [openPlain]

/-- The destination holds exactly the committed plaintext. -/
theorem bytes_commitPlaintext (s : State) (p : List Byte) : (commitPlaintext s p).bytes s.dst.toNat p.length = p := by
  rw [State.bytes_eq_memRead, State.memRead_congr (s := s.dstWrite p) (t := commitPlaintext s p) rfl rfl]
  exact s.memRead_memWrite _ p

/-- A commit leaves every byte outside the destination alone (R189). -/
theorem sameOutside_commitPlaintext (s : State) (p : List Byte) :
    sameOutside s (commitPlaintext s p) s.dst.toNat p.length :=
  sameOutside_dstWrite_done s p

/-! ### The open step (R102) -/

/-- The key of a WEP frame as the statements spell it: the IV at the front of the body, then the password. -/
theorem wepKey_eq_bytes_append_password (s : State) (h : s.klen.toNat ≤ 253) :
    wepKey s = s.bytes s.src.toNat 3 ++ s.password := by
  rw [wepKey, State.srcBytes_eq_bytes, s.keyBytes_eq_password (by omega), Nat.add_zero]

/-- Past its checks `WEP_DEC` is the open step, under the IV and the password. -/
theorem execWepDec_of_checks {s : State} (hc : openChecksPass .wepDec s s.cfg.wepHdrLen.toNat) :
    execWepDec s = .next (rc4CrcOpen (s.bytes s.src.toNat 3 ++ s.password) s.cfg.wepHdrLen.toNat s) := by
  obtain ⟨hlen, hklen, hsrc, hdst⟩ := hc
  have hklen := hklen rfl
  rw [← wepKey_eq_bytes_append_password s hklen]
  rcases execWepDec_cases s with ⟨hbad, -⟩ | ⟨-, hbad, -⟩ | ⟨-, -, hbad, -⟩ | ⟨-, -, -, -, e⟩
  · omega
  · omega
  · omega
  · exact e

/-- Past its checks the TKIP path is the open step. -/
theorem tkipDecrypt_of_checks {i : Instr} {s : State} (hc : openChecksPass i s 8) :
    tkipDecrypt s = rc4CrcOpen (tkipKey s) 8 s := by
  obtain ⟨hlen, -, hsrc, hdst⟩ := hc
  rcases tkipDecrypt_cases s with ⟨hbad, -⟩ | ⟨-, hbad, -⟩ | ⟨-, -, -, e⟩
  · omega
  · omega
  · exact e

/-- Each of the three commands is the open step with its own key and offset, once its checks pass. -/
theorem exec_eq_rc4CrcOpen {i : Instr} {s : State} {h : Nat} {key : List Byte} (ho : opensWith i s h key)
    (hc : openChecksPass i s h) : exec i s = .next (rc4CrcOpen key h s) := by
  rcases ho with ⟨rfl, rfl, rfl⟩ | ⟨rfl | ⟨rfl, hcipher⟩, rfl, rfl⟩
  · exact execWepDec_of_checks hc
  · exact congrArg _ (tkipDecrypt_of_checks hc)
  · simp only [exec, execWpaDec, hcipher, tkipDecrypt_of_checks hc]

theorem rc4CrcOpen_of_match {s : State} {h : Nat} {key : List Byte} (hl : h + 4 ≤ s.len.toNat)
    (hm : openIcv s h key = le32Bytes (crc32 (openPlain s h key))) :
    rc4CrcOpen key h s = commitPlaintext (afterOpen s h key) (openPlain s h key) := by
  rcases rc4CrcOpen_cases key h s hl with ⟨-, e⟩ | ⟨hne, -⟩
  · exact e
  · exact absurd hm.symm hne

theorem rc4CrcOpen_of_mismatch {s : State} {h : Nat} {key : List Byte} (hl : h + 4 ≤ s.len.toNat)
    (hm : openIcv s h key ≠ le32Bytes (crc32 (openPlain s h key))) :
    rc4CrcOpen key h s = (afterOpen s h key).raisePipeline .fail := by
  rcases rc4CrcOpen_cases key h s hl with ⟨he, -⟩ | ⟨-, e⟩
  · exact absurd he.symm hm
  · exact e

/-- Settles O34: past its checks the command is the open step (`exec_eq_rc4CrcOpen`), which commits the candidate plaintext on
a match and raises `FAIL` otherwise, both over `afterOpen`. -/
theorem openStepDeliversOnMatchAlone : Obligations.OpenStepDeliversOnMatchAlone := by
  intro i s h key ho hc
  have hl : h + 4 ≤ s.len.toNat := hc.1
  rw [exec_eq_rc4CrcOpen ho hc, ← openPlain_length s h key]
  refine ⟨fun hm => ⟨_, congrArg _ (rc4CrcOpen_of_match hl hm), rfl, ?_, ?_⟩,
    fun hm => congrArg _ (rc4CrcOpen_of_mismatch hl hm)⟩
  · exact bytes_commitPlaintext (afterOpen s h key) _
  · exact sameOutside_commitPlaintext (afterOpen s h key) _

end Sys2Proof.Machine
end

section
/-! PROOF. The inputs of CCM for a frame (44_wpa_ccmp.md R111 to R114): when the AAD holds `A4` and `QC`, that its masks leave
no trace of bit 14 of `FC`, and the shape of the nonce. -/

namespace Sys2Proof.Machine

/-! ### The conditions of R112 -/

theorem a4Present_iff (fc : Half) : a4Present fc = true ↔ fc.getLsbD 8 = true ∧ fc.getLsbD 9 = true := by
  simp [a4Present, toDs, fromDs]

/-- The type field [3:2] is `10` exactly when bit 3 is set and bit 2 is clear. -/
theorem typeIsData_iff (fc : Half) : fc.extractLsb' 2 2 = 0b10#2 ↔ fc.getLsbD 3 = true ∧ fc.getLsbD 2 = false := by
  constructor
  · intro h
    have bits (i : Nat) (hi : i < 2) : fc.getLsbD (2 + i) = (0b10#2).getLsbD i := by
      rw [← h, BitVec.getLsbD_extractLsb', decide_eq_true hi, Bool.true_and]
    exact ⟨bits 1 (by decide), bits 0 (by decide)⟩
  · rintro ⟨h3, h2⟩
    apply BitVec.eq_of_getLsbD_eq
    intro i hi
    rw [BitVec.getLsbD_extractLsb', decide_eq_true hi, Bool.true_and]
    obtain rfl | rfl : i = 0 ∨ i = 1 := by omega
    · exact h2
    · exact h3

theorem qosPresent_iff (fc : Half) :
    qosPresent fc = true ↔ fc.getLsbD 3 = true ∧ fc.getLsbD 2 = false ∧ fc.getLsbD 7 = true := by
  rw [qosPresent, Bool.and_eq_true, beq_iff_eq, typeIsData_iff, and_assoc]

/-! ### The AAD (R113) -/

/-- Once the bits of `m` are set, it does not matter that they were inverted before. -/
theorem xor_and_or_self (x k m : Half) : (x ^^^ m) &&& k ||| m = x &&& k ||| m := by
  ext i hi
  simp only [BitVec.getElem_or, BitVec.getElem_and, BitVec.getElem_xor]
  cases m[i] <;> simp

/-- Inverting bit 14 leaves every other bit. -/
theorem getLsbD_xor_bit14 (fc : Half) {i : Nat} (h : (0x4000#16).getLsbD i = false) :
    (fc ^^^ 0x4000#16).getLsbD i = fc.getLsbD i := by
  rw [BitVec.getLsbD_xor, h, Bool.xor_false]

theorem a4Present_xor_bit14 (fc : Half) : a4Present (fc ^^^ 0x4000#16) = a4Present fc := by
  rw [Bool.eq_iff_iff, a4Present_iff, a4Present_iff, getLsbD_xor_bit14 fc (by decide), getLsbD_xor_bit14 fc (by decide)]

theorem qosPresent_xor_bit14 (fc : Half) : qosPresent (fc ^^^ 0x4000#16) = qosPresent fc := by
  rw [Bool.eq_iff_iff, qosPresent_iff, qosPresent_iff, getLsbD_xor_bit14 fc (by decide), getLsbD_xor_bit14 fc (by decide),
    getLsbD_xor_bit14 fc (by decide)]

theorem ccmpAad_xor_bit14 (s : State) : ccmpAad { s with fc := s.fc ^^^ 0x4000#16 } = ccmpAad s := by
  simp only [ccmpAad, xor_and_or_self, a4Present_xor_bit14, qosPresent_xor_bit14]

theorem le16Bytes_length (v : Half) : (le16Bytes v).length = 2 := rfl

theorem ccmpAad_length (s : State) :
    (ccmpAad s).length = 22 + (if a4Present s.fc then 6 else 0) + (if qosPresent s.fc then 2 else 0) := by
  simp only [ccmpAad, List.length_append, Vector.length_toList, le16Bytes_length, apply_ite List.length, List.length_nil]

theorem ccmpAad_length_bounds (s : State) : 22 ≤ (ccmpAad s).length ∧ (ccmpAad s).length ≤ 30 := by
  rw [ccmpAad_length]
  constructor <;> split <;> split <;> omega

theorem toBlocks_length (x : List Byte) : (toBlocks x).length = (x.length + 15) / 16 := by
  rw [toBlocks, List.length_map, List.length_range]

/-- With its two length bytes an AAD of 22 to 30 bytes makes two blocks (R116). -/
theorem toBlocks_aad_length (v : Half) {aad : List Byte} (hlo : 22 ≤ aad.length) (hhi : aad.length ≤ 30) :
    (toBlocks (be16Bytes v ++ aad)).length = 2 := by
  have hl : (be16Bytes v ++ aad).length = 2 + aad.length := List.length_append
  rw [toBlocks_length, hl]
  omega

/-! ### The nonce (R114) -/

/-- The low four bits widened to a byte, as the low byte under the mask of R113. -/
theorem setWidth_lowNibble (qc : Half) : (qc.extractLsb' 0 4).setWidth 8 = (qc &&& 0x000F#16).extractLsb' 0 8 := by
  apply BitVec.eq_of_toNat_eq
  have hmask : (qc &&& 0x000F#16).toNat = qc.toNat % 2 ^ 4 := by
    rw [BitVec.toNat_and]
    exact Nat.and_two_pow_sub_one_eq_mod qc.toNat 4
  simp only [BitVec.toNat_setWidth, BitVec.extractLsb'_toNat, hmask, Nat.shiftRight_zero]

theorem ccmpPriority_eq_ite (s : State) :
    ccmpPriority s = if qosPresent s.fc then (s.qc &&& 0x000F#16).extractLsb' 0 8 else 0x00#8 := by
  rw [ccmpPriority, setWidth_lowNibble]

theorem ccmpNonce_length (s : State) : (ccmpNonce s).length = 13 := by
  rw [ccmpNonce, List.length_cons, List.length_append, Vector.length_toList]
  rfl

/-- Settles O41: the shapes are the definitions once R112's conditions are read bit by bit; the lengths add up, and of `FC` the
AAD takes only bits that bit 14 is none of. -/
theorem ccmpAadAndNonceShape : Obligations.CcmpAadAndNonceShape := by
  intro s
  obtain ⟨hlo, hhi⟩ := ccmpAad_length_bounds s
  simp only [← a4Present_iff, ← qosPresent_iff]
  refine ⟨rfl, ccmpAad_length s, ccmpAad_xor_bit14 s, toBlocks_aad_length _ hlo hhi, ?_, ccmpNonce_length s⟩
  rw [← ccmpPriority_eq_ite]
  rfl

end Sys2Proof.Machine
end

section
/-! PROOF. CCM (44_wpa_ccmp.md R115, R116): bytes as blocks, the counter-mode keystream byte by byte, and the CBC-MAC as a chain
over numbered blocks. -/

namespace Sys2Proof.Machine

/-! ### Bytes as blocks -/

theorem toBlock_getD (x : List Byte) {k : Nat} (hk : k < 16) : (toBlock x).toList.getD k 0#8 = x.getD k 0#8 := by
  rw [← getElem_eq_toList_getD _ k hk, toBlock, Vector.getElem_ofFn]

theorem toBlock_toList (b : Block) : toBlock b.toList = b := by
  ext k hk
  rw [getElem_eq_toList_getD _ k hk, getElem_eq_toList_getD _ k hk, toBlock_getD _ hk]

/-- Sixteen bytes are a block without padding. -/
theorem toList_toBlock {x : List Byte} (h : x.length = 16) : (toBlock x).toList = x := by
  obtain ⟨b, rfl⟩ : ∃ b : Block, b.toList = x := ⟨⟨x.toArray, h⟩, rfl⟩
  rw [toBlock_toList]

theorem toBlocks_getElem (x : List Byte) {c : Nat} (hc : c < (toBlocks x).length) :
    (toBlocks x)[c] = toBlock (x.drop (16 * c)) := by
  simp only [toBlocks, List.getElem_map, List.getElem_range]

/-- The blocks of `x` in a longer row of blocks, numbered from 0 on. -/
theorem holdsBlocks_append (pre post : List Block) (x : List Byte) (d : Block) :
    holdsBlocks (fun c => (pre ++ toBlocks x ++ post).getD c d) pre.length ((x.length + 15) / 16) x := by
  intro c k hc hk
  have hc' : c < (toBlocks x).length := by rwa [toBlocks_length]
  have hblock : (pre ++ toBlocks x ++ post).getD (pre.length + c) d = toBlock (x.drop (16 * c)) := by
    rw [List.append_assoc, List.getD_append_right _ _ _ _ (by omega), Nat.add_sub_cancel_left,
      List.getD_append _ _ _ _ hc', List.getD_eq_getElem _ _ hc', toBlocks_getElem x hc']
  simp only [hblock, toBlock_getD _ hk, List.getD_eq_getElem?_getD, List.getElem?_drop]

theorem be16Bytes_ofNat (c : Nat) : be16Bytes (BitVec.ofNat 16 c) = [BitVec.ofNat 8 (c / 256), BitVec.ofNat 8 c] := by
  have hhigh : (BitVec.ofNat 16 c).extractLsb' 8 8 = BitVec.ofNat 8 (c / 256) := by
    apply BitVec.eq_of_toNat_eq
    simp only [BitVec.extractLsb'_toNat, BitVec.toNat_ofNat, Nat.shiftRight_eq_div_pow]
    omega
  have hlow : (BitVec.ofNat 16 c).extractLsb' 0 8 = BitVec.ofNat 8 c := by
    apply BitVec.eq_of_toNat_eq
    simp only [BitVec.extractLsb'_toNat, BitVec.toNat_ofNat, Nat.shiftRight_zero]
    omega
  rw [be16Bytes, hhigh, hlow]

/-- A length below 256 has a high byte of 0. -/
theorem be16Bytes_ofNat_of_lt {c : Nat} (h : c < 256) : be16Bytes (BitVec.ofNat 16 c) = [0x00#8, BitVec.ofNat 8 c] := by
  rw [be16Bytes_ofNat, Nat.div_eq_of_lt h]

/-! ### Counter mode (R115) -/

theorem ccmKeyBlock_eq_aesEnc (tk : Block) {ctr : Block} {n : List Byte} {c : Nat}
    (h : ctr.toList = [0x01#8] ++ n ++ [BitVec.ofNat 8 (c / 256), BitVec.ofNat 8 c]) :
    ccmKeyBlock tk n c = aesEnc tk ctr := by
  have hctr : 0x01#8 :: (n ++ be16Bytes (BitVec.ofNat 16 c)) = ctr.toList := by rw [h, be16Bytes_ofNat]; rfl
  rw [ccmKeyBlock, hctr, toBlock_toList]

/-- Byte `k` of a row of blocks is byte `k % 16` of block `k / 16`. -/
theorem flatMap_range_toList_getD (f : Nat → Block) {n k : Nat} (hk : k < 16 * n) :
    ((List.range n).flatMap fun c => (f c).toList).getD k 0#8 = (f (k / 16)).toList.getD (k % 16) 0#8 := by
  induction n with
  | zero => omega
  | succ n ih =>
    have hlen : ((List.range n).flatMap fun c => (f c).toList).length = 16 * n := by simp [Nat.mul_comm]
    rw [List.range_succ, List.flatMap_append]
    by_cases h : k < 16 * n
    · rw [List.getD_append _ _ _ _ (by omega), ih h]
    · have hdiv : k / 16 = n := by omega
      have hmod : k - 16 * n = k % 16 := by omega
      rw [List.getD_append_right _ _ _ _ (by omega), hlen, hdiv, hmod, List.flatMap_singleton]

theorem ccmKeystream_getD (tk : Block) (n : List Byte) {m k : Nat} (hk : k < m) :
    (ccmKeystream tk n m).getD k 0#8 = (ccmKeyBlock tk n (k / 16 + 1)).toList.getD (k % 16) 0#8 :=
  flatMap_range_toList_getD (fun c => ccmKeyBlock tk n (c + 1)) (by omega)

theorem xorBytes_getD {x y : List Byte} {k : Nat} (hx : k < x.length) (hy : k < y.length) :
    (xorBytes x y).getD k 0#8 = x.getD k 0#8 ^^^ y.getD k 0#8 := by
  have hxy : k < (xorBytes x y).length := by rw [xorBytes_length]; omega
  rw [List.getD_eq_getElem _ _ hxy, List.getD_eq_getElem _ _ hx, List.getD_eq_getElem _ _ hy]
  exact List.getElem_zipWith

theorem State.bytes_getD (s : State) (a : Nat) {n k : Nat} (hk : k < n) : (s.bytes a n).getD k 0#8 = s.byteAt (a + k) := by
  rw [List.getD_eq_getElem _ _ (by rwa [State.bytes_length])]
  simp only [State.bytes, List.getElem_map, List.getElem_range]

theorem ccmpPlain_getD (s : State) {k : Nat} (hk : k < s.len.toNat - 16) :
    (ccmpPlain s).getD k 0#8
      = s.byteAt (s.src.toNat + 8 + k) ^^^ (ccmKeyBlock s.ccmpTk (ccmpNonce s) (k / 16 + 1)).toList.getD (k % 16) 0#8 := by
  have hstream := ccmKeystream_length s.ccmpTk (ccmpNonce s) (s.len.toNat - 16)
  rw [ccmpPlain, xorBytes_getD (by rwa [State.bytes_length]) (by omega), State.bytes_getD _ _ hk, ccmKeystream_getD _ _ hk]

/-- The part of `S_0` that covers the MIC. -/
theorem take_ccmKeyBlock_length (tk : Block) (n : List Byte) (c : Nat) : ((ccmKeyBlock tk n c).toList.take 8).length = 8 := by
  rw [List.length_take, Vector.length_toList]
  rfl

theorem ccmpReceived_length (s : State) : (ccmpReceived s).length = 8 := by
  rw [ccmpReceived, xorBytes_length, State.bytes_length, take_ccmKeyBlock_length, Nat.min_self]

theorem ccmpReceived_getD (s : State) {k : Nat} (hk : k < 8) :
    (ccmpReceived s).getD k 0#8
      = s.byteAt (s.src.toNat + 8 + (s.len.toNat - 16) + k)
        ^^^ (ccmKeyBlock s.ccmpTk (ccmpNonce s) 0).toList.getD k 0#8 := by
  rw [ccmpReceived, xorBytes_getD (by rwa [State.bytes_length]) (by rwa [take_ccmKeyBlock_length]), State.bytes_getD _ _ hk,
    List.getD_eq_getElem?_getD, List.getElem?_take_of_lt hk, List.getD_eq_getElem?_getD]

/-! ### The CBC-MAC (R116) -/

/-- The blocks the MIC is computed over, in order: `B_0`, the AAD with its length, the plaintext. -/
def ccmMacBlocks (n aad p : List Byte) : List Block :=
  [toBlock (0x59#8 :: (n ++ be16Bytes (BitVec.ofNat 16 p.length)))]
    ++ toBlocks (be16Bytes (BitVec.ofNat 16 aad.length) ++ aad) ++ toBlocks p

/-- Block `c` of R116; the zero block after the last one. -/
def ccmMacBlock (n aad p : List Byte) (c : Nat) : Block := (ccmMacBlocks n aad p).getD c (toBlock [])

/-- `X_c`, the chain of CBC encryptions over the blocks `B` (R116). -/
def cbcState (tk : Block) (B : Nat → Block) : Nat → Block
  | 0 => aesEnc tk (B 0)
  | c + 1 => aesEnc tk (xorBlock (cbcState tk B c) (B (c + 1)))

/-- Folding over the blocks that follow number `c` carries the chain on from `X_c`. -/
theorem foldl_cbcState (tk : Block) (B : Nat → Block) (bs : List Block) (c : Nat)
    (h : ∀ i (hi : i < bs.length), bs[i] = B (c + i + 1)) :
    bs.foldl (fun x b => aesEnc tk (xorBlock x b)) (cbcState tk B c) = cbcState tk B (c + bs.length) := by
  induction bs generalizing c with
  | nil => rfl
  | cons b bs ih =>
    have hhead : aesEnc tk (xorBlock (cbcState tk B c) b) = cbcState tk B (c + 1) := by
      rw [cbcState, ← h 0 (Nat.zero_lt_succ _)]
      rfl
    have htail (i : Nat) (hi : i < bs.length) : bs[i] = B (c + 1 + i + 1) := by
      have hi' := h (i + 1) (Nat.succ_lt_succ hi)
      rwa [List.getElem_cons_succ, ← Nat.add_assoc, Nat.add_right_comm c i 1] at hi'
    rw [List.foldl_cons, hhead, ih (c + 1) htail, List.length_cons, Nat.add_assoc, Nat.add_comm 1]

/-- The MIC is the first half of the chain's value after the last block. -/
theorem ccmMac_eq_cbcState (tk : Block) (n : List Byte) {aad : List Byte} (p : List Byte) (hlo : 22 ≤ aad.length)
    (hhi : aad.length ≤ 30) :
    ccmMac tk n aad p = (cbcState tk (ccmMacBlock n aad p) (2 + (p.length + 15) / 16)).toList.take 8 := by
  have hchain := foldl_cbcState tk (ccmMacBlock n aad p)
    (toBlocks (be16Bytes (BitVec.ofNat 16 aad.length) ++ aad) ++ toBlocks p) 0
    (fun i hi => by
      rw [Nat.zero_add, ccmMacBlock, ccmMacBlocks, List.append_assoc, List.singleton_append, List.getD_cons_succ,
        List.getD_eq_getElem _ _ hi])
  rw [Nat.zero_add, List.length_append, toBlocks_aad_length _ hlo hhi, toBlocks_length] at hchain
  rw [← hchain]
  rfl

theorem ccmMacBlock_zero (n aad p : List Byte) (hn : n.length = 13) :
    (ccmMacBlock n aad p 0).toList = [0x59#8] ++ n ++ [BitVec.ofNat 8 (p.length / 256), BitVec.ofNat 8 p.length] := by
  have hlen : (0x59#8 :: (n ++ be16Bytes (BitVec.ofNat 16 p.length))).length = 16 := by
    rw [List.length_cons, List.length_append, hn]
    rfl
  calc (ccmMacBlock n aad p 0).toList
      = (toBlock (0x59#8 :: (n ++ be16Bytes (BitVec.ofNat 16 p.length)))).toList := rfl
    _ = 0x59#8 :: (n ++ be16Bytes (BitVec.ofNat 16 p.length)) := toList_toBlock hlen
    _ = [0x59#8] ++ n ++ [BitVec.ofNat 8 (p.length / 256), BitVec.ofNat 8 p.length] := by rw [be16Bytes_ofNat]; rfl

/-- Blocks 1 and 2 are the AAD with its length in front. -/
theorem holdsBlocks_ccmMacBlock_aad (n : List Byte) {aad : List Byte} (p : List Byte) (hlo : 22 ≤ aad.length)
    (hhi : aad.length ≤ 30) :
    holdsBlocks (ccmMacBlock n aad p) 1 2 ([0x00#8, BitVec.ofNat 8 aad.length] ++ aad) := by
  have hblocks := holdsBlocks_append [toBlock (0x59#8 :: (n ++ be16Bytes (BitVec.ofNat 16 p.length)))] (toBlocks p)
    (be16Bytes (BitVec.ofNat 16 aad.length) ++ aad) (toBlock [])
  rw [← toBlocks_length, toBlocks_aad_length _ hlo hhi] at hblocks
  rw [← be16Bytes_ofNat_of_lt (by omega)]
  exact hblocks

/-- The plaintext stands in the blocks from number 3 on. -/
theorem holdsBlocks_ccmMacBlock_plain (n : List Byte) {aad : List Byte} (p : List Byte) (hlo : 22 ≤ aad.length)
    (hhi : aad.length ≤ 30) : holdsBlocks (ccmMacBlock n aad p) 3 ((p.length + 15) / 16) p := by
  have hblocks := holdsBlocks_append ([toBlock (0x59#8 :: (n ++ be16Bytes (BitVec.ofNat 16 p.length)))]
    ++ toBlocks (be16Bytes (BitVec.ofNat 16 aad.length) ++ aad)) [] p (toBlock [])
  rw [List.length_append, toBlocks_aad_length _ hlo hhi, List.append_nil] at hblocks
  exact hblocks

/-- Settles O59: counter mode byte by byte, and for the MIC the numbered blocks `ccmMacBlock` with the chain `cbcState` over
them. -/
theorem ccmCounterModeAndCbcMac : Obligations.CcmCounterModeAndCbcMac := by
  refine ⟨fun tk _ _ _ _ _ hctr => ccmKeyBlock_eq_aesEnc tk hctr, fun m hm => by omega,
    fun tk n _ _ => ccmKeystream_getD tk n,
    fun s => ⟨ccmpPlain_length s, fun _ => ccmpPlain_getD s, ccmpReceived_length s, fun _ => ccmpReceived_getD s⟩, ?_⟩
  intro tk n aad p hn hlo hhi _
  exact ⟨ccmMacBlock n aad p, cbcState tk (ccmMacBlock n aad p), ccmMacBlock_zero n aad p hn,
    holdsBlocks_ccmMacBlock_aad n p hlo hhi, holdsBlocks_ccmMacBlock_plain n p hlo hhi, rfl, fun _ _ => rfl,
    ccmMac_eq_cbcState tk n p hlo hhi⟩

end Sys2Proof.Machine
end

section
/-! PROOF. AES-128 (45_aes128.md): the key schedule by round keys and word by word (R132), the cipher's four steps byte by byte
and its ten rounds (R133, R134), and the key bytes the CCMP path gives it. -/

namespace Sys2Proof.Machine

/-! ### The key schedule by round keys -/

/-- The constant that round key `r + 1` is computed with. -/
def roundConstant : Nat → Byte
  | 0 => 0x01#8
  | r + 1 => xtime (roundConstant r)

/-- The four words of round key `r`. -/
def roundKey (k : Block) : Nat → RoundKey
  | 0 => firstRoundKey k
  | r + 1 => nextRoundKey (roundKey k r) (roundConstant r)

/-- The 16 bytes of round key `r`. -/
def keyBlock (k : Block) (r : Nat) : Block := roundKeyBlock (roundKey k r)

theorem roundConstants_getD {r : Nat} (h : r < 10) : roundConstants.getD r 0#8 = roundConstant r := by
  revert r
  decide

/-- From round key `r` on, the model's loop lists the round keys in order. -/
theorem roundKeysFrom_eq_keyBlock (k : Block) (r n : Nat) :
    roundKeysFrom (roundKey k r) (roundConstant r) n = (List.range' r n).map (keyBlock k) := by
  induction n generalizing r with
  | zero => rfl
  | succ n ih =>
    rw [roundKeysFrom, List.range'_succ, List.map_cons]
    exact congrArg _ (ih (r + 1))

theorem keyExpand_eq_keyBlock (k : Block) : keyExpand k = (List.range' 0 11).map (keyBlock k) :=
  roundKeysFrom_eq_keyBlock k 0 11

theorem keyExpand_length (k : Block) : (keyExpand k).length = 11 := by
  rw [keyExpand_eq_keyBlock, List.length_map, List.length_range']

/-! ### The key schedule word by word (R132) -/

/-- Word `i` of a round key, `i` from 0 to 3. -/
def RoundKey.word (k : RoundKey) : Nat → Quad
  | 0 => k.w0
  | 1 => k.w1
  | 2 => k.w2
  | _ => k.w3

/-- Four consecutive bytes of a vector. -/
theorem take_four_drop_toList {m : Nat} (v : Vector Byte m) {n : Nat} (h : n + 3 < m) :
    (v.toList.drop n).take 4 = [v[n], v[n + 1], v[n + 2], v[n + 3]] := by
  have hlen : v.toList.length = m := v.length_toList
  rw [List.drop_eq_getElem_cons (by omega), List.drop_eq_getElem_cons (by omega), List.drop_eq_getElem_cons (by omega),
    List.drop_eq_getElem_cons (by omega)]
  rfl

theorem quad_toList (u : Quad) : u.toList = [u[0], u[1], u[2], u[3]] :=
  (List.take_of_length_le u.length_toList.le).symm.trans (take_four_drop_toList u (n := 0) (by decide))

theorem xorQuad_toList (u v : Quad) : (xorQuad u v).toList = xorBytes u.toList v.toList := by
  simp only [quad_toList]
  rfl

theorem roundKeyBlock_toList (k : RoundKey) :
    (roundKeyBlock k).toList = k.w0.toList ++ k.w1.toList ++ k.w2.toList ++ k.w3.toList := by
  simp only [quad_toList]
  rfl

theorem roundKeyBlock_word (k : RoundKey) {i : Nat} (hi : i < 4) :
    ((roundKeyBlock k).toList.drop (4 * i)).take 4 = (k.word i).toList := by
  rw [quad_toList]
  match i, hi with
  | 0, _ | 1, _ | 2, _ | 3, _ => rfl

/-- The first round key is the key. -/
theorem roundKeyBlock_firstRoundKey (k : Block) : roundKeyBlock (firstRoundKey k) = k := by
  ext i hi
  interval_cases i <;> rfl

/-- Four bytes of a row of blocks that stand in one block. -/
theorem take_drop_flatMap_toList (bs : List Block) {r i : Nat} (hr : r < bs.length) (hi : i < 4) :
    ((bs.flatMap fun b => b.toList).drop (4 * (4 * r + i))).take 4 = (bs[r].toList.drop (4 * i)).take 4 := by
  induction bs generalizing r with
  | nil => exact absurd hr (Nat.not_lt_zero r)
  | cons b bs ih =>
    have hb : b.toList.length = 16 := b.length_toList
    rw [List.flatMap_cons]
    cases r with
    | zero =>
      rw [List.drop_append_of_le_length (by omega), List.take_append_of_le_length (by rw [List.length_drop]; omega)]
      simp
    | succ r =>
      have hskip : 4 * (4 * (r + 1) + i) = b.toList.length + 4 * (4 * r + i) := by omega
      rw [hskip, List.drop_length_add_append, ih (Nat.lt_of_succ_lt_succ hr), List.getElem_cons_succ]

/-- Word `4 r + i` of the schedule is word `i` of round key `r`. -/
theorem keyScheduleWord_eq_word (k : Block) {r i : Nat} (hr : r < 11) (hi : i < 4) :
    keyScheduleWord k (4 * r + i) = ((roundKey k r).word i).toList := by
  have hr' : r < (keyExpand k).length := by rwa [keyExpand_length]
  have hkey : (keyExpand k)[r] = keyBlock k r := by
    simp only [keyExpand_eq_keyBlock, List.getElem_map, List.getElem_range', Nat.zero_add, Nat.one_mul]
  rw [keyScheduleWord, take_drop_flatMap_toList _ hr' hi, hkey, keyBlock, roundKeyBlock_word _ hi]

theorem nextRoundKey_word_zero (k : RoundKey) (rc : Byte) :
    (nextRoundKey k rc).word 0 = xorQuad (k.word 0) (rotSubWord (k.word 3) rc) := rfl

theorem nextRoundKey_word_succ (k : RoundKey) (rc : Byte) {i : Nat} (hi : i < 3) :
    (nextRoundKey k rc).word (i + 1) = xorQuad (k.word (i + 1)) ((nextRoundKey k rc).word i) := by
  match i, hi with
  | 0, _ | 1, _ | 2, _ => rfl

theorem keyScheduleWord_eq_key (k : Block) {t : Nat} (ht : t < 4) :
    keyScheduleWord k t = (k.toList.drop (4 * t)).take 4 := by
  have hword := keyScheduleWord_eq_word k (r := 0) (by decide) ht
  rw [Nat.mul_zero, Nat.zero_add] at hword
  rw [hword, ← roundKeyBlock_word _ ht, roundKey, roundKeyBlock_firstRoundKey]

/-- Within a round key a word is the sum of the one above it and the one before it. -/
theorem keyScheduleWord_later_in_roundKey (k : Block) {r i : Nat} (hr : r < 10) (hi : i < 3) :
    keyScheduleWord k (4 * (r + 1) + (i + 1))
      = xorBytes (keyScheduleWord k (4 * r + (i + 1))) (keyScheduleWord k (4 * (r + 1) + i)) := by
  rw [keyScheduleWord_eq_word k (by omega) (by omega), keyScheduleWord_eq_word k (by omega) (by omega),
    keyScheduleWord_eq_word k (by omega) (by omega), roundKey, nextRoundKey_word_succ _ _ hi, xorQuad_toList]

/-- The first word of a round key: the last word of the one before is rotated, substituted and given the round constant. -/
theorem keyScheduleWord_first_in_roundKey (k : Block) {r : Nat} (hr : r < 10) {u0 u1 u2 u3 : Byte}
    (hu : keyScheduleWord k (4 * r + 3) = [u0, u1, u2, u3]) :
    keyScheduleWord k (4 * (r + 1))
      = xorBytes (keyScheduleWord k (4 * r)) [sbox u1 ^^^ roundConstants.getD r 0#8, sbox u2, sbox u3, sbox u0] := by
  have hrot : (rotSubWord ((roundKey k r).word 3) (roundConstant r)).toList
      = [sbox u1 ^^^ roundConstants.getD r 0#8, sbox u2, sbox u3, sbox u0] := by
    rw [keyScheduleWord_eq_word k (by omega) (by omega), quad_toList] at hu
    obtain ⟨rfl, rfl, rfl, rfl⟩ : _ ∧ _ ∧ _ ∧ _ := by simpa only [List.cons.injEq, and_true] using hu
    rw [roundConstants_getD hr]
    rfl
  have hnext := keyScheduleWord_eq_word k (r := r + 1) (i := 0) (by omega) (by omega)
  have hprev := keyScheduleWord_eq_word k (r := r) (i := 0) (by omega) (by omega)
  rw [roundKey, nextRoundKey_word_zero, xorQuad_toList, hrot, ← hprev] at hnext
  exact hnext

theorem keyScheduleWord_examples : ∀ p ∈ exampleScheduleWords, keyScheduleWord exampleScheduleKey p.1 = p.2 := by
  decide +kernel

/-- Settles O51: word `t` of the schedule is word `t % 4` of round key `t / 4`, and `nextRoundKey` is the recurrence for the four
words of one round key. -/
theorem aesKeyScheduleRecurrence : Obligations.AesKeyScheduleRecurrence := by
  refine ⟨fun t w => keyScheduleWord_examples (t, w), by decide,
    fun k => ⟨keyExpand_length k, fun _ => keyScheduleWord_eq_key k, fun t ht4 ht44 => ?_⟩⟩
  obtain ⟨r, i, hi, rfl⟩ : ∃ r i, i < 4 ∧ t = 4 * (r + 1) + i := ⟨t / 4 - 1, t % 4, by omega, by omega⟩
  have habove : 4 * (r + 1) + i - 4 = 4 * r + i := by omega
  have hrow : (4 * (r + 1) + i) / 4 - 1 = r := by omega
  rw [habove, hrow]
  cases i with
  | zero =>
    exact ⟨fun h => absurd (by omega) h, fun _ _ _ _ _ hu => keyScheduleWord_first_in_roundKey k (by omega) hu⟩
  | succ i => exact ⟨fun _ => keyScheduleWord_later_in_roundKey k (by omega) (by omega), fun h => absurd h (by omega)⟩

/-! ### The steps of the cipher (R133) -/

theorem xorBlock_getD (s rk : Block) {k : Nat} (hk : k < 16) :
    (xorBlock s rk).toList.getD k 0#8 = s.toList.getD k 0#8 ^^^ rk.toList.getD k 0#8 := by
  simp only [← getElem_eq_toList_getD _ k hk]
  exact Vector.getElem_zipWith hk

theorem subBytes_getD (s : Block) {k : Nat} (hk : k < 16) :
    (subBytes s).toList.getD k 0#8 = sbox (s.toList.getD k 0#8) := by
  simp only [← getElem_eq_toList_getD _ k hk]
  exact Vector.getElem_map sbox hk

/-- Each of the 16 bytes moves within its row. -/
theorem shiftRows_getD (s : Block) {r c : Nat} (hr : r < 4) (hc : c < 4) :
    (shiftRows s).toList.getD (r + 4 * c) 0#8 = s.toList.getD (r + 4 * ((c + r) % 4)) 0#8 := by
  rw [← getElem_eq_toList_getD _ _ (by omega), ← getElem_eq_toList_getD _ _ (by omega)]
  interval_cases r <;> interval_cases c <;> rfl

theorem mixColumns_column (s : Block) {c : Nat} (hc : c < 4) :
    ((mixColumns s).toList.drop (4 * c)).take 4
      = (mixColumn s[4 * c] s[4 * c + 1] s[4 * c + 2] s[4 * c + 3]).toList := by
  match c, hc with
  | 0, _ | 1, _ | 2, _ | 3, _ => rfl

/-! ### The ten rounds (R133) -/

/-- The cipher's state after round `r`, for the rounds that have a `MixColumns`. -/
def cipherState (w : Nat → Block) (b : Block) : Nat → Block
  | 0 => xorBlock b (w 0)
  | r + 1 => xorBlock (mixColumns (shiftRows (subBytes (cipherState w b r)))) (w (r + 1))

/-- With `n + 1` round keys left, `n` full rounds are followed by the last one. -/
theorem aesRounds_cipherState (w : Nat → Block) (b : Block) (r n : Nat) :
    aesRounds (cipherState w b r) ((List.range' (r + 1) (n + 1)).map w)
      = xorBlock (shiftRows (subBytes (cipherState w b (r + n)))) (w (r + n + 1)) := by
  induction n generalizing r with
  | zero => rfl
  | succ n ih =>
    have hnext := ih (r + 1)
    rw [Nat.add_right_comm r 1 n] at hnext
    exact hnext

/-- The cipher with `n + 2` round keys: the first is added, `n` full rounds follow, and the last round. -/
theorem aesCipher_cipherState (w : Nat → Block) (b : Block) (n : Nat) :
    aesCipher ((List.range' 0 (n + 2)).map w) b = xorBlock (shiftRows (subBytes (cipherState w b n))) (w (n + 1)) := by
  have hrounds := aesRounds_cipherState w b 0 n
  rw [Nat.zero_add n] at hrounds
  exact hrounds

theorem aesEnc_eq_lastRound (k b : Block) :
    aesEnc k b = xorBlock (shiftRows (subBytes (cipherState (keyBlock k) b 9))) (keyBlock k 10) := by
  rw [aesEnc, keyExpand_eq_keyBlock]
  exact aesCipher_cipherState _ b 9

theorem roundKeyBytes_eq_keyBlock (k : Block) {r : Nat} (hr : r ≤ 10) :
    roundKeyBytes k r = (keyBlock k r).toList := by
  have hword (i : Nat) (hi : i < 4) := keyScheduleWord_eq_word k (r := r) (i := i) (by omega) hi
  rw [keyBlock, roundKeyBlock_toList, roundKeyBytes, hword 1 (by decide), hword 2 (by decide), hword 3 (by decide)]
  exact congrArg (· ++ _ ++ _ ++ _) (hword 0 (by decide))

theorem State.ccmpTk_getD (s : State) {k : Nat} (hk : k < 16) :
    s.ccmpTk.toList.getD k 0#8 = s.ptk.toList.getD (s.cfg.ccmpTkOff.toNat + k) 0#8 := by
  have hoff : s.cfg.ccmpTkOff.toNat + 16 ≤ 64 := by cases s.cfg.ccmpTkOff <;> decide
  rw [← getElem_eq_toList_getD _ k hk, ← getElem_eq_toList_getD _ _ (by omega), State.ccmpTk, ptkBlock, Vector.getElem_ofFn]

theorem aesEnc_examples : ∀ p ∈ aesExamples, aesEnc p.1 p.2.1 = p.2.2 := by
  decide +kernel

/-- Settles O57: the steps byte by byte, and the rounds as the states `cipherState` with the round keys `keyBlock`. -/
theorem aesCipherIsTenRounds : Obligations.AesCipherIsTenRounds := by
  refine ⟨aesEnc_examples, fun s rk _ hk => ⟨xorBlock_getD s rk hk, subBytes_getD s hk⟩, fun s _ _ => shiftRows_getD s,
    ?columns, ?rounds, fun s _ => s.ccmpTk_getD⟩
  case columns =>
    intro s c a0 a1 a2 a3 hc hcol
    rw [take_four_drop_toList s (by omega)] at hcol
    obtain ⟨rfl, rfl, rfl, rfl⟩ : _ ∧ _ ∧ _ ∧ _ := by simpa only [List.cons.injEq, and_true] using hcol
    exact mixColumns_column s hc
  case rounds =>
    intro k b
    refine ⟨keyBlock k, cipherState (keyBlock k) b, fun _ hr => (roundKeyBytes_eq_keyBlock k hr).symm, rfl, fun r hr _ => ?_,
      aesEnc_eq_lastRound k b⟩
    cases r with
    | zero => exact absurd hr (by decide)
    | succ r => rfl

end Sys2Proof.Machine
end

section
/-! PROOF. The TKIP key mixing (46_tkip.md): the 16-bit words of R141, phase 1 as the words after each pass (R143), phase 2 as the
words of `PPK` (R144), and the bytes a frame's key is mixed from (R140, R145). -/

namespace Sys2Proof.Machine

/-! ### Words of two bytes (R141, R142, R144) -/

/-- The two spellings of `Mk16`, bytes concatenated and bytes shifted into place, are one. -/
theorem mk16_eq_or (hi lo : Byte) : mk16 hi lo = hi.setWidth 16 <<< 8 ||| lo.setWidth 16 :=
  calc mk16 hi lo = (hi ++ lo).setWidth 16 := (BitVec.setWidth_eq _).symm
    _ = hi.setWidth 16 <<< 8 ||| lo.setWidth 16 := BitVec.setWidth_append_eq_shiftLeft_setWidth_or

/-- Two neighbouring bytes of a vector as a word. -/
theorem mk16_eq_pairAt {m : Nat} (v : Vector Byte m) {n : Nat} (h : n + 1 < m) :
    mk16 v[n + 1] v[n] = pairAt v.toList n := by
  rw [mk16_eq_or, getElem_eq_toList_getD, getElem_eq_toList_getD, pairAt]

theorem tk16_eq_pairAt (tk : Block) (k : Fin 8) : tk16 tk k = pairAt tk.toList (2 * k.val) :=
  mk16_eq_pairAt tk (by omega)

theorem rotR1_eq_rotateRightOne (v : Half) : rotR1 v = rotateRightOne v := BitVec.rotateRight_def

/-- The low byte of a word shifted right by one is its bits 1 to 8. -/
theorem extractLsb'_ushiftRight_one (v : Half) : (v >>> 1).extractLsb' 0 8 = v.extractLsb' 1 8 := by
  ext k hk
  simp [Nat.add_comm]

/-! ### Phase 1 (R143) -/

/-- The words before the first pass. -/
def phase1Start (ta : Addr) (iv32 : Word) : Phase1Key :=
  { k0 := iv32.extractLsb' 0 16, k1 := iv32.extractLsb' 16 16,
    k2 := mk16 ta[1] ta[0], k3 := mk16 ta[3] ta[2], k4 := mk16 ta[5] ta[4] }

/-- The words before pass `t`, which are those after pass `t - 1`. -/
def phase1Words (tk : Block) (ta : Addr) (iv32 : Word) : Nat → Phase1Key
  | 0 => phase1Start ta iv32
  | t + 1 => phase1Step tk (phase1Words tk ta iv32 t) t

theorem phase1Start_eq_pairAt (ta : Addr) (iv32 : Word) :
    phase1Start ta iv32 = { k0 := iv32.extractLsb' 0 16, k1 := iv32.extractLsb' 16 16, k2 := pairAt ta.toList 0,
                            k3 := pairAt ta.toList 2, k4 := pairAt ta.toList 4 } := by
  rw [phase1Start, mk16_eq_pairAt ta (n := 0) (by decide), mk16_eq_pairAt ta (n := 2) (by decide),
    mk16_eq_pairAt ta (n := 4) (by decide)]

/-- The model's fold over the passes goes through `phase1Words`. -/
theorem foldl_phase1Step (tk : Block) (ta : Addr) (iv32 : Word) (n : Nat) :
    (List.range n).foldl (phase1Step tk) (phase1Start ta iv32) = phase1Words tk ta iv32 n := by
  induction n with
  | zero => rfl
  | succ n ih => rw [List.range_succ, List.foldl_append, ih]; rfl

theorem tkipPhase1_eq_phase1Words (tk : Block) (ta : Addr) (iv32 : Word) :
    tkipPhase1 tk ta iv32 = phase1Words tk ta iv32 8 :=
  foldl_phase1Step tk ta iv32 8

/-- The four words of the temporal key that pass `t` uses lie `2 * (t % 2)` bytes after those of pass 0. -/
theorem phase1Step_eq_phase1Pass (tk : Block) (p : Phase1Key) (t : Nat) :
    phase1Step tk p t
      = phase1Pass (pairAt tk.toList (0 + 2 * (t % 2))) (pairAt tk.toList (4 + 2 * (t % 2)))
          (pairAt tk.toList (8 + 2 * (t % 2))) (pairAt tk.toList (12 + 2 * (t % 2))) p (BitVec.ofNat 16 t) := by
  simp only [phase1Step, tk16_eq_pairAt]
  rcases Nat.mod_two_eq_zero_or_one t with heven | hodd
  · rw [heven]; rfl
  · rw [hodd]; rfl

theorem phase1Step_takes (tk : Block) (p : Phase1Key) (t : Nat) :
    phase1PassTakes tk.toList t p (phase1Step tk p t) := by
  rw [phase1Step_eq_phase1Pass]
  exact ⟨rfl, rfl, rfl, rfl, rfl⟩

/-! ### Phase 2 (R144) -/

/-- `PPK` before the first line; it has no word past index 5. -/
def phase2Start (p : Phase1Key) (iv16 : Half) : Nat → Half
  | 0 => p.k0
  | 1 => p.k1
  | 2 => p.k2
  | 3 => p.k3
  | 4 => p.k4
  | _ => p.k4 + iv16

/-- `PPK` after the six lines with `_S_`. -/
def phase2Middle (tk : List Byte) (p : Phase1Key) (iv16 : Half) : Nat → Half
  | 0 => phase2Start p iv16 0 + tkipSbox (phase2Start p iv16 5 ^^^ pairAt tk 0)
  | k + 1 => phase2Start p iv16 (k + 1) + tkipSbox (phase2Middle tk p iv16 k ^^^ pairAt tk (2 * (k + 1)))

/-- `PPK` at the end; the first two of the six lines with `RotR1` also use a word of the temporal key. -/
def phase2End (tk : List Byte) (p : Phase1Key) (iv16 : Half) : Nat → Half
  | 0 => phase2Middle tk p iv16 0 + rotateRightOne (phase2Middle tk p iv16 5 ^^^ pairAt tk 12)
  | k + 1 => phase2Middle tk p iv16 (k + 1)
      + rotateRightOne (if k = 0 then phase2End tk p iv16 k ^^^ pairAt tk 14 else phase2End tk p iv16 k)

theorem phase2Takes_middle_end (tk : List Byte) (p : Phase1Key) (iv16 : Half) :
    phase2Takes tk p iv16 (phase2Middle tk p iv16) (phase2End tk p iv16) :=
  ⟨rfl, rfl, rfl, rfl, rfl, rfl, rfl, rfl, rfl, rfl, rfl, rfl⟩

/-- The model's twelve lines, one after the other, are the words `phase2Middle` and `phase2End`. -/
theorem tkipPhase2_eq_rc4KeyOf (tk : Block) (p : Phase1Key) (iv16 : Half) :
    tkipPhase2 tk p iv16 = rc4KeyOf tk.toList iv16 (phase2End tk.toList p iv16) := by
  simp only [tkipPhase2, tk16_eq_pairAt, rotR1_eq_rotateRightOne, rc4KeyOf, extractLsb'_ushiftRight_one]
  rfl

/-! ### The key of a frame (R140, R145) -/

theorem State.tkipTk_toList (s : State) : s.tkipTk.toList = (s.ptk.toList.drop 32).take 16 := by
  have hptk : s.ptk.toList.length = 64 := s.ptk.length_toList
  apply List.ext_getElem
  · rw [Vector.length_toList, List.length_take, List.length_drop, hptk]
    rfl
  · intro k hk _
    simp [State.tkipTk, ptkBlock, Config.tkipTkOff]

theorem tkipIv32_eq_le32Or (s : State) :
    tkipIv32 s = le32Or (s.byteAt (s.src.toNat + 4)) (s.byteAt (s.src.toNat + 5)) (s.byteAt (s.src.toNat + 6))
      (s.byteAt (s.src.toNat + 7)) :=
  le32_eq_le32Or _ _ _ _

theorem tkipIv16_eq_or (s : State) :
    tkipIv16 s = (s.byteAt (s.src.toNat + 0)).setWidth 16 <<< 8 ||| (s.byteAt (s.src.toNat + 2)).setWidth 16 :=
  mk16_eq_or _ _

/-! ### The vectors -/

theorem tkip_vectors : ∀ v, v ∈ tkipVectors →
    tkipPhase1 v.tk v.ta v.iv32 = v.p1k ∧ tkipPhase2 v.tk v.p1k v.iv16 = v.rc4Key := by
  decide +kernel

theorem phase1After_eq_trace : (List.range 8).map phase1After = phase1Trace := by
  decide +kernel

theorem phase2Takes_example :
    phase2Takes tkipExampleTk.toList ⟨0x3DD2#16, 0x016E#16, 0x76F4#16, 0x8697#16, 0xB2E8#16⟩ 0x0001#16
      (fun k => phase2ExampleMiddle.getD k 0#16) (fun k => phase2ExampleEnd.getD k 0#16) := by
  unfold phase2Takes
  decide +kernel

theorem tkipSbox_checkValues :
    tkipSbox 0x0000#16 = 0x6363#16 ∧ tkipSbox 0x0001#16 = 0x5D42#16 ∧ tkipSbox 0x0100#16 = 0x425D#16 ∧
      tkipSbox 0x1234#16 = 0x70A1#16 ∧ tkipSbox 0xFFFF#16 = 0x1616#16 := by
  decide

/-- Settles O58: phase 1 goes through the words `phase1Words`, phase 2 through `phase2Middle` to `phase2End`, and the inputs of a
frame's key are read off the bytes of `MEM`, `PTK` and `A2`. -/
theorem tkipMixesTheKeyInTwoPhases : Obligations.TkipMixesTheKeyInTwoPhases := by
  obtain ⟨h0000, h0001, h0100, h1234, hFFFF⟩ := tkipSbox_checkValues
  refine ⟨tkip_vectors, phase1After_eq_trace, ?phase1, ?phase2, phase2Takes_example, fun _ => rfl,
    fun b => mk16_eq_or (xtime (sbox b)) (xtime (sbox b) ^^^ sbox b), h0000, h0001, h0100, h1234, hFFFF, ?frame⟩
  case phase1 =>
    intro tk ta iv32
    exact ⟨phase1Words tk ta iv32, phase1Start_eq_pairAt ta iv32, fun t _ => phase1Step_takes tk _ t,
      tkipPhase1_eq_phase1Words tk ta iv32⟩
  case phase2 =>
    intro tk p iv16
    exact ⟨_, _, phase2Takes_middle_end tk.toList p iv16, tkipPhase2_eq_rc4KeyOf tk p iv16⟩
  case frame =>
    intro s tk htk
    obtain rfl : tk = s.tkipTk := Vector.toList_inj.mp (htk.trans s.tkipTk_toList.symm)
    rw [tkipKey, tkipIv32_eq_le32Or, tkipIv16_eq_or]

end Sys2Proof.Machine
end

section
/-! PROOF. The status codes (60_exceptions.md R161, R163): every way a command can end, said once; what an end that is not `OK`
changes is read off it. -/

namespace Sys2Proof.Machine

/-! ### The marks of the table (R161) -/

theorem mayReport_ok (i : Instr) : mayReport i .ok = true := by
  cases i <;> rfl

theorem mayReport_errOp (i : Instr) : mayReport i .errOp = false := by
  cases i <;> rfl

theorem mayReport_fail (i : Instr) : mayReport i .fail = i.isPipeline := by
  cases i <;> rfl

theorem mayReport_errLen (i : Instr) : mayReport i .errLen = i.isPipeline := by
  cases i <;> rfl

theorem mayReport_errRange_of_isPipeline {i : Instr} (hi : i.isPipeline = true) : mayReport i .errRange = true := by
  cases i with
  | wepDec | wpaDec | tkipDec | ccmpDec => rfl
  | _ => cases hi

theorem isPipeline_of_opensWith {i : Instr} {s : State} {h : Nat} {key : List Byte} (ho : opensWith i s h key) :
    i.isPipeline = true := by
  rcases ho with ⟨rfl, -⟩ | ⟨rfl | ⟨rfl, -⟩, -⟩ <;> rfl

theorem isPipeline_of_takesCcmpPath {i : Instr} {s : State} (hp : takesCcmpPath i s) : i.isPipeline = true := by
  rcases hp with rfl | ⟨rfl, -⟩ <;> rfl

/-! ### How a command ends -/

/-- The ways command `i` can end in `s`: in `OK`, at one of its checks, or at the integrity check of a decryption path. -/
inductive CommandEnd (i : Instr) (s : State) : State → Prop where
  | ok {t : State} (hok : t.status = .ok) : CommandEnd i s t
  | unitCheck {c : Code} (hi : i.isPipeline = false) (hc : mayReport i c = true) : CommandEnd i s (s.raise c)
  | pipelineCheck {c : Code} (hi : i.isPipeline = true) (hc : mayReport i c = true) (hfail : c ≠ .fail) :
      CommandEnd i s (s.raisePipeline c)
  | crcMismatch {h : Nat} {key : List Byte} (ho : opensWith i s h key) :
      CommandEnd i s ((afterOpen s h key).raisePipeline .fail)
  | micMismatch (hp : takesCcmpPath i s) : CommandEnd i s (s.raisePipeline .fail)

section Ends

variable {i : Instr} {s : State}

theorem commandEnd_ite {t u : State} (p : Prop) [Decidable p] (ht : CommandEnd i s t) (hu : CommandEnd i s u) :
    CommandEnd i s (if p then t else u) := by
  split <;> assumption

theorem commandEnd_rc4CrcOpen {h : Nat} {key : List Byte} (ho : opensWith i s h key) (hl : h + 4 ≤ s.len.toNat) :
    CommandEnd i s (rc4CrcOpen key h s) := by
  rcases rc4CrcOpen_cases key h s hl with ⟨-, e⟩ | ⟨-, e⟩ <;> rw [e]
  · exact .ok rfl
  · exact .crcMismatch ho

/-- A failed length check and a failed range check of a pipeline command. -/
theorem commandEnd_lengthOrRange {c : Code} (hi : i.isPipeline = true) (hc : c = .errLen ∨ c = .errRange) :
    CommandEnd i s (s.raisePipeline c) := by
  rcases hc with rfl | rfl
  · exact .pipelineCheck hi ((mayReport_errLen i).trans hi) (by decide)
  · exact .pipelineCheck hi (mayReport_errRange_of_isPipeline hi) (by decide)

theorem commandEnd_tkipDecrypt (hi : i = .tkipDec ∨ (i = .wpaDec ∧ s.cipher = .tkip)) :
    CommandEnd i s (tkipDecrypt s) := by
  have ho : opensWith i s 8 (tkipKey s) := .inr ⟨hi, rfl, rfl⟩
  have hpipe := isPipeline_of_opensWith ho
  rcases tkipDecrypt_cases s with ⟨-, e⟩ | ⟨-, -, e⟩ | ⟨hl, -, -, e⟩ <;> rw [e]
  · exact commandEnd_lengthOrRange hpipe (.inl rfl)
  · exact commandEnd_lengthOrRange hpipe (.inr rfl)
  · exact commandEnd_rc4CrcOpen ho hl

theorem commandEnd_ccmpDecrypt (hp : takesCcmpPath i s) : CommandEnd i s (ccmpDecrypt s) := by
  have hpipe := isPipeline_of_takesCcmpPath hp
  rcases ccmpDecrypt_cases s with ⟨-, e⟩ | ⟨-, -, -, e⟩ | ⟨-, -, e⟩ | ⟨-, -, e⟩ <;> rw [e]
  · exact commandEnd_lengthOrRange hpipe (.inl rfl)
  · exact commandEnd_lengthOrRange hpipe (.inr rfl)
  · exact .ok rfl
  · exact .micMismatch hp

theorem exists_commandEnd_wepDec (s : State) : ∃ t, exec .wepDec s = .next t ∧ CommandEnd .wepDec s t := by
  rcases execWepDec_cases s with ⟨-, e⟩ | ⟨-, -, e⟩ | ⟨-, -, -, e⟩ | ⟨hl, hk, -, -, e⟩ <;> refine ⟨_, e, ?_⟩
  · exact commandEnd_lengthOrRange rfl (.inl rfl)
  · exact .pipelineCheck rfl rfl (by decide)
  · exact commandEnd_lengthOrRange rfl (.inr rfl)
  · exact commandEnd_rc4CrcOpen (.inl ⟨rfl, rfl, wepKey_eq_bytes_append_password s hk⟩) hl

/-- Every command ends in one of these ways, in every state. -/
theorem exists_commandEnd (i : Instr) (s : State) : ∃ t, exec i s = .next t ∧ CommandEnd i s t := by
  cases i with
  | nop | srst | crcInit | icsInit | bsel => exact ⟨_, rfl, .ok rfl⟩
  | crcUpd | crcPut | icsUpd | icsPut | rc4Xor =>
    exact ⟨_, rfl, commandEnd_ite _ (.ok rfl) (.unitCheck rfl rfl)⟩
  | rc4Ksa => exact ⟨_, rfl, commandEnd_ite _ (.unitCheck rfl rfl) (.ok rfl)⟩
  | wepDec => exact exists_commandEnd_wepDec s
  | wpaDec =>
    cases hc : s.cipher with
    | tkip => exact ⟨tkipDecrypt s, by simp only [exec, execWpaDec, hc], commandEnd_tkipDecrypt (.inr ⟨rfl, hc⟩)⟩
    | ccmp => exact ⟨ccmpDecrypt s, by simp only [exec, execWpaDec, hc], commandEnd_ccmpDecrypt (.inr ⟨rfl, hc⟩)⟩
  | tkipDec => exact ⟨_, rfl, commandEnd_tkipDecrypt (.inl rfl)⟩
  | ccmpDec => exact ⟨_, rfl, commandEnd_ccmpDecrypt (.inl rfl)⟩

theorem commandEnd_of_exec {t : State} (h : exec i s = .next t) : CommandEnd i s t := by
  obtain ⟨u, hu, hend⟩ := exists_commandEnd i s
  obtain rfl : u = t := by simpa [hu] using h
  exact hend

/-- A command reports only codes marked in its row (R161). -/
theorem CommandEnd.mayReport_status {t : State} (hend : CommandEnd i s t) : mayReport i t.status = true := by
  cases hend with
  | ok hok => rw [hok, mayReport_ok]
  | unitCheck _ hc => exact hc
  | pipelineCheck _ hc _ => exact hc
  | crcMismatch ho => exact (mayReport_fail i).trans (isPipeline_of_opensWith ho)
  | micMismatch hp => exact (mayReport_fail i).trans (isPipeline_of_takesCcmpPath hp)

/-! ### What an end that is not `OK` changes (R163) -/

/-- The frame fixes the key and the offset it is opened with. -/
theorem opensWith_unique {h h' : Nat} {key key' : List Byte} (ho : opensWith i s h key) (ho' : opensWith i s h' key') :
    h' = h ∧ key' = key := by
  rcases ho with ⟨rfl, rfl, rfl⟩ | ⟨hi, rfl, rfl⟩
  · rcases ho' with ⟨-, rfl, rfl⟩ | ⟨hi' | ⟨hi', -⟩, -⟩
    · exact ⟨rfl, rfl⟩
    · cases hi'
    · cases hi'
  · rcases ho' with ⟨rfl, -⟩ | ⟨-, rfl, rfl⟩
    · rcases hi with hi | ⟨hi, -⟩ <;> cases hi
    · exact ⟨rfl, rfl⟩

theorem not_takesCcmpPath_of_opensWith {h : Nat} {key : List Byte} (ho : opensWith i s h key) : ¬ takesCcmpPath i s := by
  rcases ho with ⟨rfl, -⟩ | ⟨rfl | ⟨rfl, hc⟩, -⟩ <;> simp [takesCcmpPath, *]

theorem CommandEnd.mem_eq {t : State} (hend : CommandEnd i s t) (hne : t.status ≠ .ok) : t.mem = s.mem := by
  cases hend with
  | ok hok => exact absurd hok hne
  | unitCheck | pipelineCheck | crcMismatch | micMismatch => rfl

theorem CommandEnd.status_ne_errOp {t : State} (hend : CommandEnd i s t) : t.status ≠ .errOp := by
  intro h
  simpa [h, mayReport_errOp] using hend.mayReport_status

/-- A failed check leaves the code and, from a pipeline command, `OLEN = 0`. -/
theorem CommandEnd.eq_of_check {t : State} (hend : CommandEnd i s t)
    (hcode : t.status = .errLen ∨ t.status = .errKlen ∨ t.status = .errRange) :
    (i.isPipeline = false → t = { s with status := t.status }) ∧
    (i.isPipeline = true → t = { s with status := t.status, olen := 0#32 }) := by
  cases hend with
  | ok hok => simp [hok] at hcode
  | unitCheck hi _ => exact ⟨fun _ => rfl, fun hp => absurd (hi.symm.trans hp) Bool.false_ne_true⟩
  | pipelineCheck hi _ _ => exact ⟨fun hn => absurd (hn.symm.trans hi) Bool.false_ne_true, fun _ => rfl⟩
  | crcMismatch | micMismatch => simp at hcode

/-- `FAIL` comes from one of the two integrity checks, and from the one on the path that the command takes. -/
theorem CommandEnd.eq_of_fail {t : State} (hend : CommandEnd i s t) (hcode : t.status = .fail) :
    (takesCcmpPath i s ∧ t = s.raisePipeline .fail) ∨
    ∃ h key, opensWith i s h key ∧ t = (afterOpen s h key).raisePipeline .fail := by
  cases hend with
  | ok hok => simp [hok] at hcode
  | unitCheck hi hc =>
    obtain rfl := hcode
    rw [mayReport_fail, hi] at hc
    cases hc
  | pipelineCheck _ _ hfail => exact absurd hcode hfail
  | crcMismatch ho => exact .inr ⟨_, _, ho, rfl⟩
  | micMismatch hp => exact .inl ⟨hp, rfl⟩

end Ends

/-- Settles O43: an unlisted word raises `ERR_OP` (`issue_of_unlisted`), and the rows of the table are read off the ways a
command can end (`commandEnd_of_exec`). -/
theorem nonOkEndsChangeOnlyWhatIsListed : Obligations.NonOkEndsChangeOnlyWhatIsListed := by
  refine ⟨fun s w hw => issue_of_unlisted s fun i hi => hw i ((decode_eq_ok_iff_mem_commandTable w i).mpr hi),
    fun i s t hexec => ?_⟩
  have hend := commandEnd_of_exec hexec
  refine ⟨hend.mem_eq, hend.status_ne_errOp, hend.eq_of_check, fun hcode => ?_⟩
  rcases hend.eq_of_fail hcode with ⟨hp, rfl⟩ | ⟨h, key, ho, rfl⟩
  · exact ⟨.inl hp, fun _ => rfl, fun h key ho => absurd hp (not_takesCcmpPath_of_opensWith ho)⟩
  · refine ⟨.inr ⟨h, key, ho⟩, fun hp => absurd hp (not_takesCcmpPath_of_opensWith ho), fun h' key' ho' => ?_⟩
    obtain ⟨rfl, rfl⟩ := opensWith_unique ho ho'
    rfl

end Sys2Proof.Machine
end

section
/-! PROOF. The table of status codes (60_exceptions.md R161): no blank occurs (`CommandEnd.mayReport_status`), and for each mark
a well-kept state in which the command reports that code. -/

namespace Sys2Proof.Machine

/-- A mark of the table: command `i` reports `c` in some well-kept state. -/
def reports (i : Instr) (c : Code) : Prop := ∃ s t : State, s.Inv ∧ exec i s = .next t ∧ t.status = c

/-! ### A frame body under a header of zeros -/

/-- After reset with default parameters, a frame body at index 0 of `MEM`: `h` zero bytes, then `x`; the operands set to
process all of it. -/
def bodyFrame (h : Nat) (x : List Byte) : State :=
  { State.reset.memWrite 0 (List.replicate h 0#8 ++ x) with len := BitVec.ofNat 32 (h + x.length) }

section Body

variable (h : Nat) (x : List Byte)

theorem bodyFrame_inv (hx : h + x.length ≤ 65536) : (bodyFrame h x).Inv where
  memCanonical := Memory.wf_storeRange (m := []) List.Pairwise.nil _ _
  memInRange c hc := by
    rcases Memory.mem_storeRange hc with ⟨-, hlt⟩ | hnil
    · have hlt : c.1 < h + x.length := by simpa using hlt
      exact lt_of_lt_of_le hlt hx
    · cases hnil
  permutation := .refl _
  cfgLegal := show Config.default.wf = true by decide

theorem bodyFrame_len (hx : h + x.length ≤ 65536) : (bodyFrame h x).len.toNat = h + x.length :=
  (BitVec.toNat_ofNat _ _).trans (Nat.mod_eq_of_lt (by omega))

theorem byteAt_bodyFrame (a : Nat) :
    (bodyFrame h x).byteAt a = (State.reset.memWrite 0 (List.replicate h 0#8 ++ x)).byteAt a :=
  State.byteAt_congr rfl rfl a

theorem byteAt_bodyFrame_header {k : Nat} (hk : k < h) : (bodyFrame h x).byteAt k = 0#8 := by
  have hin : 0 ≤ k ∧ k < 0 + (List.replicate h 0#8 ++ x).length := by
    simp only [List.length_append, List.length_replicate]
    omega
  rw [byteAt_bodyFrame, State.byteAt_memWrite, dif_pos hin]
  simp [List.getElem_append_left, hk]

theorem bodyByte_bodyFrame {k : Nat} (hk : k < h) : (bodyFrame h x).bodyByte k = 0#8 :=
  (congrArg _ (Nat.zero_add k)).trans (byteAt_bodyFrame_header h x hk)

theorem bytes_bodyFrame : (bodyFrame h x).bytes h x.length = x := by
  apply List.ext_getElem
  · simp [State.bytes_length]
  · intro k hk hkx
    have hin : 0 ≤ h + k ∧ h + k < 0 + (List.replicate h 0#8 ++ x).length := by
      simp only [List.length_append, List.length_replicate]
      omega
    simp only [State.bytes, List.getElem_map, List.getElem_range, byteAt_bodyFrame, State.byteAt_memWrite, dif_pos hin]
    simp [List.getElem_append_right]

end Body

/-! ### The open step: an empty plaintext and a check value that is right or wrong -/

/-- The check value `v` encrypted. -/
def sealedIcv (key v : List Byte) : List Byte := (rc4Xor (rc4Ksa key) v).1

theorem sealedIcv_length (key v : List Byte) : (sealedIcv key v).length = v.length := rc4Xor_length _ _

section OpenStep

variable {h : Nat} (hh : h ≤ 8) (key : List Byte) {v : List Byte} (hv : v.length = 4)

include hh hv

theorem sealedIcv_bodyFrame_inv : (bodyFrame h (sealedIcv key v)).Inv :=
  bodyFrame_inv _ _ (by rw [sealedIcv_length]; omega)

theorem sealedIcv_bodyFrame_len : (bodyFrame h (sealedIcv key v)).len.toNat = h + 4 := by
  rw [bodyFrame_len _ _ (by rw [sealedIcv_length]; omega), sealedIcv_length, hv]

theorem openPlain_bodyFrame : openPlain (bodyFrame h (sealedIcv key v)) h key = [] :=
  List.eq_nil_of_length_eq_zero (by rw [openPlain_length, sealedIcv_bodyFrame_len hh key hv]; omega)

theorem openIcv_bodyFrame : openIcv (bodyFrame h (sealedIcv key v)) h key = v := by
  have hlen := sealedIcv_bodyFrame_len hh key hv
  have hstart : (bodyFrame h (sealedIcv key v)).src.toNat + h = h := Nat.zero_add h
  have hsealed := bytes_bodyFrame h (sealedIcv key v)
  rw [sealedIcv_length, hv] at hsealed
  calc openIcv (bodyFrame h (sealedIcv key v)) h key
      = (rc4Xor (rc4Ksa key) ((bodyFrame h (sealedIcv key v)).bytes h 4)).1 := by
        simp only [openIcv, rc4Xor_bytes, hstart, hlen, show h + 4 - h - 4 = 0 by omega, Nat.zero_add]
    _ = v := by rw [hsealed, sealedIcv, rc4Xor_rc4Xor]

theorem openChecksPass_bodyFrame (i : Instr) : openChecksPass i (bodyFrame h (sealedIcv key v)) h := by
  have hmem : (bodyFrame h (sealedIcv key v)).cfg.memSize = 65536 := rfl
  have hsrc : (bodyFrame h (sealedIcv key v)).src.toNat = 0 := rfl
  have hdst : (bodyFrame h (sealedIcv key v)).dst.toNat = 0 := rfl
  have hklen : (bodyFrame h (sealedIcv key v)).klen.toNat = 0 := rfl
  rw [openChecksPass, sealedIcv_bodyFrame_len hh key hv, hmem, hsrc, hdst, hklen]
  omega

/-- A command that opens the frame reports `OK` exactly when the check value it carries is that of no data. -/
theorem exec_open_bodyFrame {i : Instr} (ho : opensWith i (bodyFrame h (sealedIcv key v)) h key) :
    ∃ t, exec i (bodyFrame h (sealedIcv key v)) = .next t ∧
      t.status = if v = le32Bytes (crc32 []) then .ok else .fail := by
  have hpass := openChecksPass_bodyFrame hh key hv i
  refine ⟨_, exec_eq_rc4CrcOpen ho hpass, ?_⟩
  rcases rc4CrcOpen_cases key h _ hpass.1 with ⟨hm, e⟩ | ⟨hm, e⟩
  all_goals rw [openPlain_bodyFrame hh key hv, openIcv_bodyFrame hh key hv] at hm
  · rw [e, if_pos hm.symm]
    rfl
  · rw [e, if_neg fun h => hm h.symm]
    rfl

end OpenStep

theorem reports_of_opens {i : Instr} {h : Nat} {key : List Byte} (hh : h ≤ 8)
    (ho : ∀ x, opensWith i (bodyFrame h x) h key) : reports i .ok ∧ reports i .fail := by
  constructor
  · have hv : (le32Bytes (crc32 [])).length = 4 := rfl
    obtain ⟨t, he, hstatus⟩ := exec_open_bodyFrame hh key hv (ho _)
    exact ⟨_, t, sealedIcv_bodyFrame_inv hh key hv, he, hstatus.trans (if_pos rfl)⟩
  · have hv : (List.replicate 4 0xFF#8).length = 4 := rfl
    obtain ⟨t, he, hstatus⟩ := exec_open_bodyFrame hh key hv (ho _)
    exact ⟨_, t, sealedIcv_bodyFrame_inv hh key hv, he, hstatus.trans (if_neg (by decide))⟩

/-- The IV is three zeros and the password is empty. -/
theorem opensWith_wepDec_bodyFrame (x : List Byte) :
    opensWith .wepDec (bodyFrame 4 x) 4 (List.replicate 3 0#8) := by
  refine .inl ⟨rfl, rfl, ?_⟩
  have hiv : (bodyFrame 4 x).bytes 0 3 = (List.range 3).map fun _ => 0#8 :=
    List.map_congr_left fun k hk => byteAt_bodyFrame_header _ _ (by
      have := List.mem_range.mp hk
      omega)
  exact (congrArg (· ++ []) hiv).symm

/-- Under a header of zeros the TKIP key does not depend on the rest of the body. -/
theorem tkipKey_bodyFrame (x : List Byte) :
    tkipKey (bodyFrame 8 x) = tkipKey (bodyFrame 8 []) := by
  simp only [tkipKey, tkipIv16, tkipIv32, bodyByte_bodyFrame, Nat.reduceLT]
  rfl

theorem opensWith_tkipPath_bodyFrame {i : Instr} (hi : i = .tkipDec ∨ i = .wpaDec) (x : List Byte) :
    opensWith i (bodyFrame 8 x) 8 (tkipKey (bodyFrame 8 [])) :=
  .inr ⟨hi.imp_right fun hi => ⟨hi, rfl⟩, rfl, (tkipKey_bodyFrame x).symm⟩

/-! ### The CCMP path: no data and a MIC that is right or wrong -/

/-- The nonce of a frame under a header of zeros. -/
def zeroNonce : List Byte := ccmpNonce (bodyFrame 8 [])

/-- The MIC that a frame without data under a header of zeros has to carry. -/
def emptyMic : List Byte := ccmMac State.reset.ccmpTk zeroNonce (ccmpAad State.reset) []

theorem emptyMic_length : emptyMic.length = 8 := by
  rw [emptyMic, ccmMac, List.length_take, Vector.length_toList]
  rfl

/-- The MIC `u` encrypted for a frame under a header of zeros. -/
def sealedMic (u : List Byte) : List Byte :=
  xorBytes u ((ccmKeyBlock State.reset.ccmpTk zeroNonce 0).toList.take 8)

theorem sealedMic_length {u : List Byte} (hu : u.length = 8) : (sealedMic u).length = 8 := by
  rw [sealedMic, xorBytes_length, take_ccmKeyBlock_length, hu, Nat.min_self]

theorem ccmpNonce_bodyFrame (x : List Byte) : ccmpNonce (bodyFrame 8 x) = zeroNonce := by
  simp only [zeroNonce, ccmpNonce, ccmpPn, bodyByte_bodyFrame, Nat.reduceLT]
  rfl

section Ccmp

variable {u : List Byte} (hu : u.length = 8)

include hu

theorem sealedMic_bodyFrame_len : (bodyFrame 8 (sealedMic u)).len.toNat = 16 := by
  rw [bodyFrame_len _ _ (by rw [sealedMic_length hu]; omega), sealedMic_length hu]

theorem ccmpPlain_bodyFrame : ccmpPlain (bodyFrame 8 (sealedMic u)) = [] :=
  List.eq_nil_of_length_eq_zero (by rw [ccmpPlain_length, sealedMic_bodyFrame_len hu])

theorem ccmpReceived_bodyFrame : ccmpReceived (bodyFrame 8 (sealedMic u)) = u := by
  have hsealed := bytes_bodyFrame 8 (sealedMic u)
  rw [sealedMic_length hu] at hsealed
  have hstart : (bodyFrame 8 (sealedMic u)).src.toNat + 8 + (16 - 16) = 8 := rfl
  have htk : (bodyFrame 8 (sealedMic u)).ccmpTk = State.reset.ccmpTk := rfl
  rw [ccmpReceived, sealedMic_bodyFrame_len hu, hstart, hsealed, ccmpNonce_bodyFrame, htk, sealedMic]
  exact xorBytes_cancel _ _ (by rw [take_ccmKeyBlock_length, hu])

theorem ccmpComputed_bodyFrame : ccmpComputed (bodyFrame 8 (sealedMic u)) = emptyMic := by
  have htk : (bodyFrame 8 (sealedMic u)).ccmpTk = State.reset.ccmpTk := rfl
  have haad : ccmpAad (bodyFrame 8 (sealedMic u)) = ccmpAad State.reset := rfl
  rw [ccmpComputed, ccmpPlain_bodyFrame hu, ccmpNonce_bodyFrame, htk, haad, emptyMic]

theorem ccmpChecksPass_bodyFrame : ccmpChecksPass (bodyFrame 8 (sealedMic u)) := by
  have hmem : (bodyFrame 8 (sealedMic u)).cfg.memSize = 65536 := rfl
  have hsrc : (bodyFrame 8 (sealedMic u)).src.toNat = 0 := rfl
  have hdst : (bodyFrame 8 (sealedMic u)).dst.toNat = 0 := rfl
  rw [ccmpChecksPass, sealedMic_bodyFrame_len hu, hmem, hsrc, hdst]
  omega

/-- `CCMP_DEC` over the frame reports `OK` exactly when the MIC it carries is the expected one. -/
theorem exec_ccmpDec_bodyFrame : ∃ t, exec .ccmpDec (bodyFrame 8 (sealedMic u)) = .next t ∧
    t.status = if u = emptyMic then .ok else .fail := by
  refine ⟨_, rfl, ?_⟩
  have hpass := ccmpChecksPass_bodyFrame hu
  rcases ccmpDecrypt_cases (bodyFrame 8 (sealedMic u)) with ⟨hbad, -⟩ | ⟨-, -, hbad, -⟩ | ⟨-, hm, e⟩ | ⟨-, hm, e⟩
  · obtain ⟨hlo, hhi, -⟩ := hpass
    omega
  · obtain ⟨-, -, hsrc, hdst⟩ := hpass
    omega
  · rw [ccmpComputed_bodyFrame hu, ccmpReceived_bodyFrame hu] at hm
    rw [e, if_pos hm.symm]
    rfl
  · rw [ccmpComputed_bodyFrame hu, ccmpReceived_bodyFrame hu] at hm
    rw [e, if_neg fun h => hm h.symm]
    rfl

end Ccmp

theorem reports_ccmpDec : reports .ccmpDec .ok ∧ reports .ccmpDec .fail := by
  have hinv {u : List Byte} (hu : u.length = 8) : (bodyFrame 8 (sealedMic u)).Inv :=
    bodyFrame_inv _ _ (by rw [sealedMic_length hu]; decide)
  constructor
  · obtain ⟨t, he, hstatus⟩ := exec_ccmpDec_bodyFrame emptyMic_length
    exact ⟨_, t, hinv emptyMic_length, he, hstatus.trans (if_pos rfl)⟩
  · obtain ⟨u, hu, hne⟩ : ∃ u : List Byte, u.length = 8 ∧ u ≠ emptyMic := by
      by_cases hzero : emptyMic = List.replicate 8 0x00#8
      · exact ⟨List.replicate 8 0xFF#8, rfl, by rw [hzero]; decide⟩
      · exact ⟨List.replicate 8 0x00#8, rfl, fun h => hzero h.symm⟩
    obtain ⟨t, he, hstatus⟩ := exec_ccmpDec_bodyFrame hu
    exact ⟨_, t, hinv hu, he, hstatus.trans (if_neg hne)⟩

/-! ### The marks of each column -/

/-- The state after reset with other operands: it meets the invariant, which does not speak of them. -/
def withOperands (src dst len klen : Word) : State :=
  { State.reset with src := src, dst := dst, len := len, klen := klen }

theorem withOperands_inv (src dst len klen : Word) : (withOperands src dst len klen).Inv where
  memCanonical := .nil
  memInRange _ hc := nomatch hc
  permutation := .refl _
  cfgLegal := show Config.default.wf = true by decide

/-- Both outcomes of the integrity check of a pipeline command occur; `WPA_DEC` is shown on the TKIP path. -/
theorem reports_ok_and_fail {i : Instr} (hi : i.isPipeline = true) : reports i .ok ∧ reports i .fail := by
  cases i with
  | wepDec => exact reports_of_opens (by decide) opensWith_wepDec_bodyFrame
  | tkipDec => exact reports_of_opens (by decide) (opensWith_tkipPath_bodyFrame (.inl rfl))
  | wpaDec => exact reports_of_opens (by decide) (opensWith_tkipPath_bodyFrame (.inr rfl))
  | ccmpDec => exact reports_ccmpDec
  | _ => cases hi

/-- One key byte and no source bytes suit every command outside the pipeline. -/
theorem reports_ok (i : Instr) : reports i .ok := by
  cases i with
  | wepDec | wpaDec | tkipDec | ccmpDec => exact (reports_ok_and_fail rfl).1
  | _ => exact ⟨withOperands 0 0 0 1, _, withOperands_inv _ _ _ _, rfl, rfl⟩

theorem reports_fail {i : Instr} (h : mayReport i .fail = true) : reports i .fail :=
  (reports_ok_and_fail ((mayReport_fail i).symm.trans h)).2

/-- An empty body is too short for every pipeline command. -/
theorem reports_errLen {i : Instr} (h : mayReport i .errLen = true) : reports i .errLen := by
  cases i with
  | wepDec | wpaDec | tkipDec | ccmpDec => exact ⟨withOperands 0 0 0 0, _, withOperands_inv _ _ _ _, rfl, rfl⟩
  | _ => cases h

/-- 257 key bytes are more than either command takes. -/
theorem reports_errKlen {i : Instr} (h : mayReport i .errKlen = true) : reports i .errKlen := by
  cases i with
  | rc4Ksa | wepDec => exact ⟨withOperands 0 0 16 257, _, withOperands_inv _ _ _ _, rfl, rfl⟩
  | _ => cases h

/-- Sixteen bytes are enough for every pipeline command, and none of them lies inside `MEM`. -/
theorem reports_errRange {i : Instr} (h : mayReport i .errRange = true) : reports i .errRange := by
  cases i with
  | crcUpd | crcPut | icsUpd | icsPut | rc4Xor | wepDec | wpaDec | tkipDec | ccmpDec =>
    exact ⟨withOperands 65536 65536 16 0, _, withOperands_inv _ _ _ _, rfl, rfl⟩
  | _ => cases h

/-- Settles O42: a code that a command reports is marked (`CommandEnd.mayReport_status`), and each column's marks all occur. -/
theorem statusCodesAreThoseOfTheTable : Obligations.StatusCodesAreThoseOfTheTable := by
  intro i c
  constructor
  · intro h
    cases c with
    | ok => exact reports_ok i
    | fail => exact reports_fail h
    | errOp => exact absurd ((mayReport_errOp i).symm.trans h) Bool.false_ne_true
    | errLen => exact reports_errLen h
    | errKlen => exact reports_errKlen h
    | errRange => exact reports_errRange h
  · rintro ⟨s, t, -, hexec, rfl⟩
    exact (commandEnd_of_exec hexec).mayReport_status

end Sys2Proof.Machine
end

section
/-! PROOF. The RC4 commands over the state (42_rc4.md R91, R92): each on both sides of its check, their examples, and what
follows for messages in pieces and for a message processed twice. -/

namespace Sys2Proof.Machine

/-! ### `RC4_KSA` (R91) -/

/-- What `RC4_KSA` leaves behind once its check passes. -/
def afterRc4Ksa (s : State) : State := { s with rc4 := rc4Ksa s.password, status := .ok }

theorem exec_rc4Ksa_of_legal {s : State} (hlo : 1 ≤ s.klen.toNat) (hhi : s.klen.toNat ≤ 256) :
    exec .rc4Ksa s = .next (afterRc4Ksa s) := by
  have hcheck : ¬ (s.klen.toNat < 1 || 256 < s.klen.toNat) = true := by
    rw [Bool.or_eq_true, decide_eq_true_iff, decide_eq_true_iff]
    omega
  simp only [exec, execRc4Ksa, if_neg hcheck, s.keyBytes_eq_password hhi]
  rfl

theorem exec_rc4Ksa_of_illegal {s : State} (h : s.klen.toNat = 0 ∨ 256 < s.klen.toNat) :
    exec .rc4Ksa s = .next (s.raise .errKlen) := by
  have hcheck : (s.klen.toNat < 1 || 256 < s.klen.toNat) = true := by
    rw [Bool.or_eq_true, decide_eq_true_iff, decide_eq_true_iff]
    omega
  simp only [exec, execRc4Ksa, if_pos hcheck]

theorem State.password_congr {s t : State} (hklen : t.klen = s.klen) (hkey : t.key = s.key) : t.password = s.password := by
  simp only [State.password, hklen, hkey]

/-- The schedule starts from the identity whatever the engine held. -/
theorem afterRc4Ksa_twice (s : State) : afterRc4Ksa (afterRc4Ksa s) = afterRc4Ksa s := by
  have hkey : (afterRc4Ksa s).password = s.password := State.password_congr rfl rfl
  rw [afterRc4Ksa, hkey]
  rfl

theorem exec_rc4Ksa_twice {s t u : State} (h1 : exec .rc4Ksa s = .next t) (h2 : exec .rc4Ksa t = .next u) : u = t := by
  by_cases hlegal : 1 ≤ s.klen.toNat ∧ s.klen.toNat ≤ 256
  · obtain ⟨hlo, hhi⟩ := hlegal
    obtain rfl := Host.Outcome.next.inj ((exec_rc4Ksa_of_legal hlo hhi).symm.trans h1)
    rw [exec_rc4Ksa_of_legal (s := afterRc4Ksa s) hlo hhi, afterRc4Ksa_twice] at h2
    exact (Host.Outcome.next.inj h2).symm
  · have hbad : s.klen.toNat = 0 ∨ 256 < s.klen.toNat := by omega
    obtain rfl := Host.Outcome.next.inj ((exec_rc4Ksa_of_illegal hbad).symm.trans h1)
    rw [exec_rc4Ksa_of_illegal (s := s.raise .errKlen) hbad] at h2
    exact (Host.Outcome.next.inj h2).symm

/-- The examples of R91 and R92 in one run: `S[0..16)` for the key "Key", then the message "Plaintext". -/
theorem rc4Example_run :
    (rc4Ksa rc4ExampleKey).s.toList.take 16
      = [0x4B#8, 0x33#8, 0x84#8, 0x9D#8, 0xC0#8, 0xC8#8, 0x1D#8, 0xA8#8,
        0x4A#8, 0xF3#8, 0x83#8, 0xE4#8, 0x12#8, 0x70#8, 0x82#8, 0x90#8] ∧
    (rc4Xor (rc4Ksa rc4ExampleKey) rc4ExampleText).1
      = [0xBB#8, 0xF3#8, 0x16#8, 0xE8#8, 0xD9#8, 0x40#8, 0xAF#8, 0x0A#8, 0xD3#8] ∧
    (rc4Xor (rc4Ksa rc4ExampleKey) rc4ExampleText).2.i = 9#8 ∧
    (rc4Xor (rc4Ksa rc4ExampleKey) rc4ExampleText).2.j = 222#8 := by
  decide +kernel

theorem scheduleIndex_example :
    scheduleIndex rc4ExampleKey 1 = 75#8 ∧ scheduleIndex rc4ExampleKey 2 = 177#8 ∧
      scheduleIndex rc4ExampleKey 3 = 44#8 ∧ scheduleIndex rc4ExampleKey 4 = 122#8 := by
  decide +kernel

/-- Settles O29: the command on both sides of its check, repeated, and the schedule's own laws. -/
theorem rc4KsaSchedulesTheKeyBytes : Obligations.Rc4KsaSchedulesTheKeyBytes := by
  obtain ⟨hj1, hj2, hj3, hj4⟩ := scheduleIndex_example
  exact ⟨rfl, rc4Example_run.1, hj1, hj2, hj3, hj4, fun _ _ _ => exec_rc4Ksa_twice,
    fun _ => ⟨exec_rc4Ksa_of_legal, exec_rc4Ksa_of_illegal⟩, fun key => ⟨rc4Ksa_perm key, rfl, rfl⟩⟩

/-! ### `RC4_XOR` (R92) -/

/-- The bytes `RC4_XOR` stores: the source range under the keystream. -/
def rc4Output (s : State) : List Byte := (rc4Xor s.rc4 (s.bytes s.src.toNat s.len.toNat)).1

theorem rc4Output_length (s : State) : (rc4Output s).length = s.len.toNat := by
  rw [rc4Output, rc4Xor_length, State.bytes_length]

theorem rc4Output_getElem (s : State) {k : Nat} (hk : k < (rc4Output s).length) :
    (rc4Output s)[k] = s.byteAt (s.src.toNat + k) ^^^ rc4StreamByte s.rc4 k := by
  simp only [rc4Output, rc4Xor_bytes, List.getElem_map, List.getElem_range]

/-- What `RC4_XOR` leaves behind once its checks pass. -/
def afterRc4Xor (s : State) : State :=
  { (s.dstWrite (rc4Output s)).done with rc4 := rc4Advance s.len.toNat s.rc4 }

theorem exec_rc4Xor_of_fits {s : State} (hsrc : s.src.toNat + s.len.toNat ≤ s.cfg.memSize)
    (hdst : s.dst.toNat + s.len.toNat ≤ s.cfg.memSize) : exec .rc4Xor s = .next (afterRc4Xor s) := by
  have hfits : (s.srcFits s.len.toNat && s.dstFits s.len.toNat) = true :=
    (Bool.and_eq_true _ _).mpr ⟨(s.srcFits_iff _).mpr hsrc, (s.dstFits_iff _).mpr hdst⟩
  simp only [exec, execRc4Xor, if_pos hfits, rc4Xor_state, State.srcBytes_eq_bytes, State.bytes_length, Nat.add_zero]
  rfl

theorem exec_rc4Xor_of_not_fits {s : State}
    (h : s.cfg.memSize < s.src.toNat + s.len.toNat ∨ s.cfg.memSize < s.dst.toNat + s.len.toNat) :
    exec .rc4Xor s = .next (s.raise .errRange) := by
  have hfits : ¬ (s.srcFits s.len.toNat && s.dstFits s.len.toNat) = true := by
    rw [Bool.and_eq_true, State.srcFits_iff, State.dstFits_iff]
    omega
  simp only [exec, execRc4Xor, if_neg hfits]

/-- A byte after `RC4_XOR`: inside the destination range the source byte under the keystream, elsewhere the old byte. -/
theorem byteAt_afterRc4Xor (s : State) (a : Nat) :
    (afterRc4Xor s).byteAt a
      = if s.dst.toNat ≤ a ∧ a < s.dst.toNat + s.len.toNat then
          s.byteAt (s.src.toNat + (a - s.dst.toNat)) ^^^ rc4StreamByte s.rc4 (a - s.dst.toNat)
        else s.byteAt a := by
  have hread : (afterRc4Xor s).byteAt a = (s.dstWrite (rc4Output s)).byteAt a := State.byteAt_congr rfl rfl a
  simp only [hread, State.byteAt_dstWrite, rc4Output_length, rc4Output_getElem, dite_eq_ite]

/-- Input and output of a run give its keystream. -/
theorem map_rc4StreamByte_range (r : Rc4) (x : List Byte) :
    (List.range x.length).map (rc4StreamByte r) = xorBytes (rc4Xor r x).1 x := by
  apply List.ext_getElem
  · simp [xorBytes_length, rc4Xor_length]
  · intro k _ _
    simp only [List.getElem_map, List.getElem_range, xorBytes, List.getElem_zipWith, rc4Xor_getElem]
    rw [BitVec.xor_comm, ← BitVec.xor_assoc, BitVec.xor_self, BitVec.zero_xor]

/-- The keystream of the engine as reset leaves it. -/
theorem rc4Reset_keystream : (List.range 8).map (rc4StreamByte State.reset.rc4)
    = [0x02#8, 0x05#8, 0x07#8, 0x0D#8, 0x0D#8, 0x17#8, 0x1F#8, 0x28#8] := by
  decide +kernel

/-- With no bytes to process only the code is written. -/
theorem afterRc4Xor_of_len_zero {s : State} (h : s.len = 0#32) : afterRc4Xor s = s.done := by
  have hout : rc4Output s = [] := List.eq_nil_of_length_eq_zero (by rw [rc4Output_length, h]; rfl)
  rw [afterRc4Xor, hout, h]
  rfl

/-- Settles O30: the examples, and the command on both sides of its checks, byte by byte (`byteAt_afterRc4Xor`). -/
theorem rc4XorMapsTheSourceRange : Obligations.Rc4XorMapsTheSourceRange := by
  obtain ⟨-, hout, hi, hj⟩ := rc4Example_run
  refine ⟨rfl, ?keystream, hout, hi, hj, rc4Reset_keystream, fun s => ⟨fun hlen hsrc hdst => ?empty,
    fun hsrc hdst => ⟨_, exec_rc4Xor_of_fits hsrc hdst, rfl, fun k hk => ?inside, fun a ha => ?outside⟩,
    exec_rc4Xor_of_not_fits⟩⟩
  case keystream =>
    refine (map_rc4StreamByte_range _ rc4ExampleText).trans ?_
    rw [hout]
    decide
  case empty =>
    have hzero : s.len.toNat = 0 := by rw [hlen]; rfl
    rw [exec_rc4Xor_of_fits (by omega) (by omega), afterRc4Xor_of_len_zero hlen]
    rfl
  case inside => rw [byteAt_afterRc4Xor, if_pos (by omega), Nat.add_sub_cancel_left]
  case outside => rw [byteAt_afterRc4Xor, if_neg (by omega)]

/-! ### A message in two pieces -/

/-- Keystream byte `k` of the engine after `n` bytes is keystream byte `n + k`. -/
theorem rc4StreamByte_advance (r : Rc4) (n k : Nat) : rc4StreamByte (rc4Advance n r) k = rc4StreamByte r (n + k) := by
  rw [rc4StreamByte, rc4StreamByte, rc4Advance_add]

/-- A sum below the size of the buffer does not wrap: no legal `MEM_SIZE` needs more than 32 bits (00_scope.md R5). -/
theorem toNat_of_le_memSize {c : Config} (hc : c.wf = true) {n : Nat} (h : n ≤ c.memSize) :
    (BitVec.ofNat 32 n).toNat = n := by
  simp only [Config.wf, Bool.and_eq_true, decide_eq_true_iff] at hc
  obtain ⟨-, hsize⟩ := hc
  exact (BitVec.toNat_ofNat n 32).trans (Nat.mod_eq_of_lt (by omega))

theorem toNat_add_of_le_memSize {c : Config} (hc : c.wf = true) {w : Word} {n : Nat} (h : w.toNat + n ≤ c.memSize) :
    (w + BitVec.ofNat 32 n).toNat = w.toNat + n := by
  rw [BitVec.toNat_add, toNat_of_le_memSize hc (Nat.le_of_add_left_le h)]
  have hsum := toNat_of_le_memSize hc h
  rwa [BitVec.toNat_ofNat] at hsum

/-- The first `n` bytes of the message. -/
def firstPiece (s : State) (n : Nat) : State := { s with len := BitVec.ofNat 32 n }

/-- The `m` bytes after them, once they are processed. -/
def secondPiece (s : State) (n m : Nat) : State :=
  { afterRc4Xor (firstPiece s n) with
    src := s.src + BitVec.ofNat 32 n, dst := s.dst + BitVec.ofNat 32 n, len := BitVec.ofNat 32 m }

section Pieces

variable {s : State} {n m : Nat}

theorem byteAt_afterRc4Xor_firstPiece (hn : (BitVec.ofNat 32 n).toNat = n) (a : Nat) :
    (afterRc4Xor (firstPiece s n)).byteAt a
      = if s.dst.toNat ≤ a ∧ a < s.dst.toNat + n then
          s.byteAt (s.src.toNat + (a - s.dst.toNat)) ^^^ rc4StreamByte s.rc4 (a - s.dst.toNat)
        else s.byteAt a := by
  have hread (x : Nat) : (firstPiece s n).byteAt x = s.byteAt x := State.byteAt_congr rfl rfl x
  simp only [byteAt_afterRc4Xor, hread]
  simp only [firstPiece, hn]

theorem byteAt_afterRc4Xor_secondPiece (hn : (BitVec.ofNat 32 n).toNat = n) (hm : (BitVec.ofNat 32 m).toNat = m)
    (hsrc : (s.src + BitVec.ofNat 32 n).toNat = s.src.toNat + n)
    (hdst : (s.dst + BitVec.ofNat 32 n).toNat = s.dst.toNat + n) (a : Nat) :
    (afterRc4Xor (secondPiece s n m)).byteAt a
      = if s.dst.toNat + n ≤ a ∧ a < s.dst.toNat + n + m then
          (afterRc4Xor (firstPiece s n)).byteAt (s.src.toNat + (a - s.dst.toNat)) ^^^ rc4StreamByte s.rc4 (a - s.dst.toNat)
        else (afterRc4Xor (firstPiece s n)).byteAt a := by
  have hread (x : Nat) : (secondPiece s n m).byteAt x = (afterRc4Xor (firstPiece s n)).byteAt x :=
    State.byteAt_congr rfl rfl x
  have hrc4 : (secondPiece s n m).rc4 = rc4Advance n s.rc4 := congrArg (rc4Advance · s.rc4) hn
  have hsrc' : (secondPiece s n m).src.toNat = s.src.toNat + n := hsrc
  have hdst' : (secondPiece s n m).dst.toNat = s.dst.toNat + n := hdst
  have hlen' : (secondPiece s n m).len.toNat = m := hm
  rw [byteAt_afterRc4Xor, hsrc', hdst', hlen', hrc4]
  split
  next hin =>
    have hk : n + (a - (s.dst.toNat + n)) = a - s.dst.toNat := by omega
    rw [hread, rc4StreamByte_advance, Nat.add_assoc, hk]
  next => rw [hread]

/-- Two pieces give the bytes of one run, when the output of the first does not fall on the input of the second. -/
theorem byteAt_pieces (hn : (BitVec.ofNat 32 n).toNat = n) (hm : (BitVec.ofNat 32 m).toNat = m)
    (hnm : (BitVec.ofNat 32 (n + m)).toNat = n + m)
    (hsrc : (s.src + BitVec.ofNat 32 n).toNat = s.src.toNat + n)
    (hdst : (s.dst + BitVec.ofNat 32 n).toNat = s.dst.toNat + n)
    (hapart : s.dst.toNat ≤ s.src.toNat ∨ s.src.toNat + (n + m) ≤ s.dst.toNat) (a : Nat) :
    (afterRc4Xor (secondPiece s n m)).byteAt a = (afterRc4Xor (firstPiece s (n + m))).byteAt a := by
  rw [byteAt_afterRc4Xor_secondPiece hn hm hsrc hdst, byteAt_afterRc4Xor_firstPiece hnm]
  by_cases hsecond : s.dst.toNat + n ≤ a ∧ a < s.dst.toNat + n + m
  · have hunwritten : ¬ (s.dst.toNat ≤ s.src.toNat + (a - s.dst.toNat) ∧
        s.src.toNat + (a - s.dst.toNat) < s.dst.toNat + n) := by
      omega
    rw [if_pos hsecond, if_pos (by omega), byteAt_afterRc4Xor_firstPiece hn, if_neg hunwritten]
  · rw [if_neg hsecond, byteAt_afterRc4Xor_firstPiece hn]
    exact if_congr (by omega) rfl rfl

end Pieces

/-- Settles O31: the second piece continues the keystream of the first (`rc4StreamByte_advance`) and reads source bytes that
the first piece has not written (`byteAt_pieces`). -/
theorem rc4XorInPiecesIsRc4XorOfTheWhole : Obligations.Rc4XorInPiecesIsRc4XorOfTheWhole := by
  intro s n m hcfg hsrc hdst hapart _
  have hn : (BitVec.ofNat 32 n).toNat = n := toNat_of_le_memSize hcfg (by omega)
  have hm : (BitVec.ofNat 32 m).toNat = m := toNat_of_le_memSize hcfg (by omega)
  have hnm : (BitVec.ofNat 32 (n + m)).toNat = n + m := toNat_of_le_memSize hcfg (by omega)
  have hsrc' : (s.src + BitVec.ofNat 32 n).toNat = s.src.toNat + n := toNat_add_of_le_memSize hcfg (by omega)
  have hdst' : (s.dst + BitVec.ofNat 32 n).toNat = s.dst.toNat + n := toNat_add_of_le_memSize hcfg (by omega)
  have first : exec .rc4Xor (firstPiece s n) = .next (afterRc4Xor (firstPiece s n)) :=
    exec_rc4Xor_of_fits (by simp only [firstPiece, hn]; omega) (by simp only [firstPiece, hn]; omega)
  have second : exec .rc4Xor (secondPiece s n m) = .next (afterRc4Xor (secondPiece s n m)) :=
    exec_rc4Xor_of_fits (show (s.src + _).toNat + (BitVec.ofNat 32 m).toNat ≤ s.cfg.memSize by omega)
      (show (s.dst + _).toNat + (BitVec.ofNat 32 m).toNat ≤ s.cfg.memSize by omega)
  have whole : exec .rc4Xor (firstPiece s (n + m)) = .next (afterRc4Xor (firstPiece s (n + m))) :=
    exec_rc4Xor_of_fits (by simp only [firstPiece, hnm]; omega) (by simp only [firstPiece, hnm]; omega)
  refine ⟨_, _, _, first, second, whole, ?_, rfl, rfl, byteAt_pieces hn hm hnm hsrc' hdst' hapart⟩
  calc rc4Advance (BitVec.ofNat 32 m).toNat (rc4Advance (BitVec.ofNat 32 n).toNat s.rc4)
      = rc4Advance (n + m) s.rc4 := by rw [hn, hm, rc4Advance_add]
    _ = rc4Advance (BitVec.ofNat 32 (n + m)).toNat s.rc4 := by rw [hnm]

/-! ### The same message twice -/

/-- `RC4_XOR` in place under the keystream it was encrypted with restores every byte (42_rc4.md section 1). -/
theorem byteAt_afterRc4Xor_twice {s u : State} (hplace : s.dst = s.src) (hu : u.mem = (afterRc4Xor s).mem)
    (hdraws : u.draws = s.draws) (hsrc : u.src = s.src) (hdst : u.dst = s.dst) (hlen : u.len = s.len)
    (hrc4 : u.rc4 = s.rc4) (a : Nat) : (afterRc4Xor u).byteAt a = s.byteAt a := by
  have hread (x : Nat) : u.byteAt x = (afterRc4Xor s).byteAt x := State.byteAt_congr hu hdraws x
  simp only [byteAt_afterRc4Xor, hread, hsrc, hdst, hlen, hrc4, hplace]
  by_cases hin : s.src.toNat ≤ a ∧ a < s.src.toNat + s.len.toNat
  · have ha : s.src.toNat + (a - s.src.toNat) = a := by omega
    simp only [ha, if_pos hin, BitVec.xor_assoc, BitVec.xor_self, BitVec.xor_zero]
  · simp only [if_neg hin]

/-- Settles O32: the schedule gives the same engine both times, since `RC4_XOR` leaves `KEY` and `KLEN` alone, so that the same
keystream is applied twice. -/
theorem rc4TwiceInPlaceRestoresMemory : Obligations.Rc4TwiceInPlaceRestoresMemory := by
  intro s hlo hhi hplace hsrc _
  have hdst : s.dst.toNat + s.len.toNat ≤ s.cfg.memSize := by rwa [hplace]
  have hkey : (afterRc4Xor (afterRc4Ksa s)).password = s.password := State.password_congr rfl rfl
  have hrc4 : (afterRc4Ksa (afterRc4Xor (afterRc4Ksa s))).rc4 = rc4Ksa s.password := congrArg rc4Ksa hkey
  refine ⟨_, _, _, _, exec_rc4Ksa_of_legal hlo hhi, exec_rc4Xor_of_fits (s := afterRc4Ksa s) hsrc hdst,
    exec_rc4Ksa_of_legal (s := afterRc4Xor (afterRc4Ksa s)) hlo hhi,
    exec_rc4Xor_of_fits (s := afterRc4Ksa (afterRc4Xor (afterRc4Ksa s))) hsrc hdst, ?_, fun a => ?_⟩
  · exact congrArg (rc4Advance s.len.toNat) hrc4
  · have hstart : (afterRc4Ksa s).byteAt a = s.byteAt a := State.byteAt_congr rfl rfl a
    have hrestored := byteAt_afterRc4Xor_twice (s := afterRc4Ksa s) (u := afterRc4Ksa (afterRc4Xor (afterRc4Ksa s)))
      hplace rfl rfl rfl rfl rfl hrc4 a
    exact hrestored.trans hstart

end Sys2Proof.Machine
end

section
/-! PROOF. Every effect a command can have, said once (`CommandEffect`), and what the registers, the units' state and the
packet buffer keep under it (10_state.md R10 to R26, 20_memory.md R46, R48). -/

namespace Sys2Proof.Machine

/-! ### The effects -/

/-- The states command `i` can leave behind in `s`. A command that writes `MEM` writes its destination range, inside `MEM`. -/
inductive CommandEffect (i : Instr) (s : State) : State → Prop where
  | reset (hi : i = .srst) : CommandEffect i s (softReset s)
  | code (c : Code) : CommandEffect i s (s.raise c)
  | pipelineCode (c : Code) (hi : i.isPipeline = true) : CommandEffect i s (s.raisePipeline c)
  | crc (acc : Word) (hi : i = .crcInit ∨ i = .crcUpd) : CommandEffect i s { s.done with crcAcc := acc }
  | ics (sum : Half) (phase : Bool) (hi : i = .icsInit ∨ i = .icsUpd) :
      CommandEffect i s { s.done with icsSum := sum, icsPhase := phase }
  | select (b : Addr) (hi : i = .bsel) : CommandEffect i s { s.done with bssid := b }
  | schedule (key : List Byte) (hi : i = .rc4Ksa) : CommandEffect i s { s.done with rc4 := rc4Ksa key }
  | store (v : List Byte) (hi : i = .crcPut ∨ i = .icsPut) (hlen : v.length = destLength i s)
      (hfits : s.dst.toNat + v.length ≤ s.cfg.memSize) : CommandEffect i s (s.dstWrite v).done
  | stream (v : List Byte) (n : Nat) (hi : i = .rc4Xor) (hlen : v.length = destLength i s)
      (hfits : s.dst.toNat + v.length ≤ s.cfg.memSize) :
      CommandEffect i s { (s.dstWrite v).done with rc4 := rc4Advance n s.rc4 }
  | openFail {h : Nat} {key : List Byte} (ho : opensWith i s h key) :
      CommandEffect i s ((afterOpen s h key).raisePipeline .fail)
  | openCommit {h : Nat} {key : List Byte} (p : List Byte) (ho : opensWith i s h key) (hlen : p.length = destLength i s)
      (hfits : s.dst.toNat + p.length ≤ s.cfg.memSize) : CommandEffect i s (commitPlaintext (afterOpen s h key) p)
  | ccmpCommit (p : List Byte) (hp : takesCcmpPath i s) (hlen : p.length = destLength i s)
      (hfits : s.dst.toNat + p.length ≤ s.cfg.memSize) : CommandEffect i s (commitPlaintext s p)

section Effects

variable {i : Instr} {s : State}

/-- A command that checks one condition has the effect of one of its two branches. -/
theorem commandEffect_ite {t u : State} (p : Prop) [Decidable p] (ht : p → CommandEffect i s t)
    (hu : CommandEffect i s u) : CommandEffect i s (if p then t else u) := by
  split
  next h => exact ht h
  next => exact hu

theorem destLength_of_opensWith {h : Nat} {key : List Byte} (ho : opensWith i s h key) :
    destLength i s = s.len.toNat - h - 4 := by
  rcases ho with ⟨rfl, rfl, -⟩ | ⟨rfl | ⟨rfl, hc⟩, rfl, -⟩
  · rfl
  · simp only [destLength, Nat.sub_sub]
  · simp only [destLength, hc, Nat.sub_sub]

theorem destLength_of_takesCcmpPath (hp : takesCcmpPath i s) : destLength i s = s.len.toNat - 16 := by
  rcases hp with rfl | ⟨rfl, hc⟩
  · rfl
  · simp only [destLength, hc]

theorem commandEffect_rc4CrcOpen {h : Nat} {key : List Byte} (ho : opensWith i s h key) (hl : h + 4 ≤ s.len.toNat)
    (hfits : s.dst.toNat + (s.len.toNat - h - 4) ≤ s.cfg.memSize) : CommandEffect i s (rc4CrcOpen key h s) := by
  have hplain := openPlain_length s h key
  rcases rc4CrcOpen_cases key h s hl with ⟨-, e⟩ | ⟨-, e⟩ <;> rw [e]
  · exact .openCommit _ ho (hplain.trans (destLength_of_opensWith ho).symm) (hplain ▸ hfits)
  · exact .openFail ho

theorem commandEffect_tkipDecrypt (hi : i = .tkipDec ∨ (i = .wpaDec ∧ s.cipher = .tkip)) :
    CommandEffect i s (tkipDecrypt s) := by
  have ho : opensWith i s 8 (tkipKey s) := .inr ⟨hi, rfl, rfl⟩
  have hpipe := isPipeline_of_opensWith ho
  rcases tkipDecrypt_cases s with ⟨-, e⟩ | ⟨-, -, e⟩ | ⟨hl, -, hdst, e⟩ <;> rw [e]
  · exact .pipelineCode _ hpipe
  · exact .pipelineCode _ hpipe
  · exact commandEffect_rc4CrcOpen ho hl (by rwa [Nat.sub_sub])

theorem commandEffect_ccmpDecrypt (hp : takesCcmpPath i s) : CommandEffect i s (ccmpDecrypt s) := by
  have hpipe := isPipeline_of_takesCcmpPath hp
  have hplain := ccmpPlain_length s
  rcases ccmpDecrypt_cases s with ⟨-, e⟩ | ⟨-, -, -, e⟩ | ⟨⟨-, -, -, hdst⟩, -, e⟩ | ⟨-, -, e⟩ <;> rw [e]
  · exact .pipelineCode _ hpipe
  · exact .pipelineCode _ hpipe
  · exact .ccmpCommit _ hp (hplain.trans (destLength_of_takesCcmpPath hp).symm) (hplain ▸ hdst)
  · exact .pipelineCode _ hpipe

theorem exists_commandEffect_wepDec (s : State) : ∃ t, exec .wepDec s = .next t ∧ CommandEffect .wepDec s t := by
  rcases execWepDec_cases s with ⟨-, e⟩ | ⟨-, -, e⟩ | ⟨-, -, -, e⟩ | ⟨hl, hk, -, hdst, e⟩ <;> refine ⟨_, e, ?_⟩
  · exact .pipelineCode _ rfl
  · exact .pipelineCode _ rfl
  · exact .pipelineCode _ rfl
  · exact commandEffect_rc4CrcOpen (.inl ⟨rfl, rfl, wepKey_eq_bytes_append_password s hk⟩) hl hdst

theorem exists_commandEffect_rc4Xor (s : State) : ∃ t, exec .rc4Xor s = .next t ∧ CommandEffect .rc4Xor s t := by
  by_cases hfits : s.src.toNat + s.len.toNat ≤ s.cfg.memSize ∧ s.dst.toNat + s.len.toNat ≤ s.cfg.memSize
  · obtain ⟨hsrc, hdst⟩ := hfits
    have hlen := rc4Output_length s
    exact ⟨_, exec_rc4Xor_of_fits hsrc hdst, .stream _ _ rfl hlen (hlen ▸ hdst)⟩
  · exact ⟨_, exec_rc4Xor_of_not_fits (by omega), .code _⟩

/-- Every command has one of these effects, in every state. -/
theorem exists_commandEffect (i : Instr) (s : State) : ∃ t, exec i s = .next t ∧ CommandEffect i s t := by
  cases i with
  | nop => exact ⟨_, rfl, .code .ok⟩
  | srst => exact ⟨_, rfl, .reset rfl⟩
  | crcInit => exact ⟨_, rfl, .crc _ (.inl rfl)⟩
  | crcUpd => exact ⟨_, rfl, commandEffect_ite _ (fun _ => .crc _ (.inr rfl)) (.code _)⟩
  | crcPut =>
    exact ⟨_, rfl, commandEffect_ite _ (fun h => .store _ (.inl rfl) rfl ((s.dstFits_iff 4).mp h)) (.code _)⟩
  | icsInit => exact ⟨_, rfl, .ics _ _ (.inl rfl)⟩
  | icsUpd => exact ⟨_, rfl, commandEffect_ite _ (fun _ => .ics _ _ (.inr rfl)) (.code _)⟩
  | icsPut =>
    exact ⟨_, rfl, commandEffect_ite _ (fun h => .store _ (.inr rfl) rfl ((s.dstFits_iff 2).mp h)) (.code _)⟩
  | rc4Ksa => exact ⟨_, rfl, commandEffect_ite _ (fun _ => .code _) (.schedule _ rfl)⟩
  | rc4Xor => exact exists_commandEffect_rc4Xor s
  | bsel => exact ⟨_, rfl, .select _ rfl⟩
  | wepDec => exact exists_commandEffect_wepDec s
  | wpaDec =>
    cases hc : s.cipher with
    | tkip => exact ⟨tkipDecrypt s, by simp only [exec, execWpaDec, hc], commandEffect_tkipDecrypt (.inr ⟨rfl, hc⟩)⟩
    | ccmp => exact ⟨ccmpDecrypt s, by simp only [exec, execWpaDec, hc], commandEffect_ccmpDecrypt (.inr ⟨rfl, hc⟩)⟩
  | tkipDec => exact ⟨_, rfl, commandEffect_tkipDecrypt (.inl rfl)⟩
  | ccmpDec => exact ⟨_, rfl, commandEffect_ccmpDecrypt (.inl rfl)⟩

theorem commandEffect_of_exec {t : State} (h : exec i s = .next t) : CommandEffect i s t := by
  obtain ⟨u, hu, heff⟩ := exists_commandEffect i s
  obtain rfl : u = t := by simpa [hu] using h
  exact heff

/-! ### The host's registers -/

/-- The registers that only the host and a reset write (10_state.md R12, R14, R22 to R25). -/
def keepsHostRegisters (s t : State) : Prop :=
  t.src = s.src ∧ t.dst = s.dst ∧ t.len = s.len ∧ t.klen = s.klen ∧ t.cipher = s.cipher ∧
  t.sc = s.sc ∧ t.qc = s.qc ∧ t.a1 = s.a1 ∧ t.a2 = s.a2 ∧ t.a3 = s.a3 ∧ t.a4 = s.a4 ∧ t.ptk = s.ptk ∧ t.key = s.key

theorem CommandEffect.keepsHostRegisters {t : State} (heff : CommandEffect i s t) (hi : i ≠ .srst) :
    keepsHostRegisters s t := by
  cases heff with
  | reset h => exact absurd h hi
  | _ => exact ⟨rfl, rfl, rfl, rfl, rfl, rfl, rfl, rfl, rfl, rfl, rfl, rfl, rfl⟩

theorem CommandEffect.isPipeline_of_olen_ne {t : State} (heff : CommandEffect i s t) (hi : i ≠ .srst)
    (hne : t.olen ≠ s.olen) : i.isPipeline = true := by
  cases heff with
  | reset h => exact absurd h hi
  | pipelineCode _ h => exact h
  | openFail ho | openCommit _ ho => exact isPipeline_of_opensWith ho
  | ccmpCommit _ hp => exact isPipeline_of_takesCcmpPath hp
  | _ => exact absurd rfl hne

/-- `FC` is kept, or a pipeline command that ends in `OK` clears bit 14 (R22). -/
theorem CommandEffect.fc_cases {t : State} (heff : CommandEffect i s t) (hi : i ≠ .srst) :
    t.fc = s.fc ∨ (t.fc = clearProtected s.fc ∧ i.isPipeline = true ∧ t.status = .ok) := by
  cases heff with
  | reset h => exact absurd h hi
  | openCommit _ ho => exact .inr ⟨rfl, isPipeline_of_opensWith ho, rfl⟩
  | ccmpCommit _ hp => exact .inr ⟨rfl, isPipeline_of_takesCcmpPath hp, rfl⟩
  | _ => exact .inl rfl

/-- Settles O45: the model's own fields by `keepsOwnFields_of_exec`, the registers by the effects a command can have. -/
theorem commandsKeepTheHostsRegisters : Obligations.CommandsKeepTheHostsRegisters := by
  intro i s t hexec
  have heff := commandEffect_of_exec hexec
  obtain ⟨hcfg, hdraws, hinbox, hreply⟩ := keepsOwnFields_of_exec hexec
  refine ⟨hcfg, hdraws, hinbox, hreply, fun hi => ?_⟩
  obtain ⟨hsrc, hdst, hlen, hklen, hcipher, hsc, hqc, h1, h2, h3, h4, hptk, hkey⟩ := heff.keepsHostRegisters hi
  refine ⟨hsrc, hdst, hlen, hklen, hcipher, hsc, hqc, h1, h2, h3, h4, hptk, hkey, heff.isPipeline_of_olen_ne hi, ?_, ?_⟩
  · exact fun hne => (heff.fc_cases hi).resolve_left hne |>.2
  · exact (heff.fc_cases hi).imp_right And.left

/-! ### The units' state -/

/-- The commands that run the open step. -/
theorem eq_of_opensWith {h : Nat} {key : List Byte} (ho : opensWith i s h key) :
    i = .wepDec ∨ i = .tkipDec ∨ (i = .wpaDec ∧ s.cipher = .tkip) := by
  rcases ho with ⟨hi, -⟩ | ⟨hi, -⟩
  · exact .inl hi
  · exact .inr hi

theorem CommandEffect.ics_writer {t : State} (heff : CommandEffect i s t) (hi : i ≠ .srst)
    (hne : t.icsSum ≠ s.icsSum ∨ t.icsPhase ≠ s.icsPhase) : i = .icsInit ∨ i = .icsUpd := by
  cases heff with
  | reset h => exact absurd h hi
  | ics _ _ h => exact h
  | _ => exact absurd rfl (hne.resolve_left (absurd rfl))

theorem CommandEffect.bssid_writer {t : State} (heff : CommandEffect i s t) (hi : i ≠ .srst)
    (hne : t.bssid ≠ s.bssid) : i = .bsel := by
  cases heff with
  | reset h => exact absurd h hi
  | select _ h => exact h
  | _ => exact absurd rfl hne

theorem CommandEffect.crcAcc_writer {t : State} (heff : CommandEffect i s t) (hi : i ≠ .srst)
    (hne : t.crcAcc ≠ s.crcAcc) :
    i = .crcInit ∨ i = .crcUpd ∨ i = .wepDec ∨ i = .tkipDec ∨ (i = .wpaDec ∧ s.cipher = .tkip) := by
  cases heff with
  | reset h => exact absurd h hi
  | crc _ h => exact or_assoc.mp (.inl h)
  | openFail ho | openCommit _ ho => exact .inr (.inr (eq_of_opensWith ho))
  | _ => exact absurd rfl hne

theorem CommandEffect.rc4_writer {t : State} (heff : CommandEffect i s t) (hi : i ≠ .srst) (hne : t.rc4 ≠ s.rc4) :
    i = .rc4Ksa ∨ i = .rc4Xor ∨ i = .wepDec ∨ i = .tkipDec ∨ (i = .wpaDec ∧ s.cipher = .tkip) := by
  cases heff with
  | reset h => exact absurd h hi
  | schedule _ h => exact .inl h
  | stream _ _ h => exact .inr (.inl h)
  | openFail ho | openCommit _ ho => exact .inr (.inr (eq_of_opensWith ho))
  | _ => exact absurd rfl hne

/-- Settles O46: the writers of each unit's state, read off the effects. -/
theorem unitStateIsWrittenByItsCommandsAlone : Obligations.UnitStateIsWrittenByItsCommandsAlone := by
  intro i s t hexec hi
  have heff := commandEffect_of_exec hexec
  exact ⟨heff.ics_writer hi, heff.bssid_writer hi, heff.crcAcc_writer hi, heff.rc4_writer hi⟩

/-! ### The packet buffer -/

/-- A command leaves `MEM` alone, or ends in `OK` with its whole destination range stored, inside `MEM` (R46, R48). -/
theorem CommandEffect.mem_cases {t : State} (heff : CommandEffect i s t) :
    t.mem = s.mem ∨ ∃ v, t.mem = s.mem.storeRange s.dst.toNat v ∧ t.status = .ok ∧ v.length = destLength i s ∧
      s.dst.toNat + v.length ≤ s.cfg.memSize := by
  cases heff with
  | store v _ hlen hfits | stream v _ _ hlen hfits | openCommit v _ hlen hfits | ccmpCommit v _ hlen hfits =>
    exact .inr ⟨v, rfl, rfl, hlen, hfits⟩
  | _ => exact .inl rfl

/-- Settles O47: a byte outside the range a command stores reads as before (`State.byteAt_dstWrite`). -/
theorem onlyDestinationBytesChange : Obligations.OnlyDestinationBytesChange := by
  intro i s t a hexec hne
  obtain ⟨-, hdraws, -, -⟩ := keepsOwnFields_of_exec hexec
  rcases (commandEffect_of_exec hexec).mem_cases with hmem | ⟨v, hmem, hok, hlen, hfits⟩
  · exact absurd (State.byteAt_congr hmem hdraws a) hne
  · have hread : t.byteAt a = (s.dstWrite v).byteAt a := State.byteAt_congr (s := s.dstWrite v) hmem hdraws a
    have hin : s.dst.toNat ≤ a ∧ a < s.dst.toNat + v.length := by
      by_contra hout
      exact hne (by rw [hread, State.byteAt_dstWrite, dif_neg hout])
    exact ⟨hok, hin.1, hlen ▸ hin.2, by omega⟩

/-! ### The invariant -/

/-- The key schedule and the keystream keep `S` a permutation, and a reset makes it one (R20). -/
theorem CommandEffect.permutation {t : State} (heff : CommandEffect i s t)
    (hs : s.rc4.s.toList.Perm Rc4.identity.toList) : t.rc4.s.toList.Perm Rc4.identity.toList := by
  cases heff with
  | reset => exact .refl _
  | schedule => exact rc4Ksa_perm _
  | stream => exact (rc4Advance_perm _ _).trans hs
  | openFail | openCommit => exact (rc4Advance_perm _ _).trans (rc4Ksa_perm _)
  | _ => exact hs

/-- A buffer in canonical form with all its bytes inside `MEM`. -/
def Memory.inside (m : Memory) (size : Nat) : Prop := m.wf ∧ ∀ c ∈ m, c.1 < size

theorem Memory.inside_storeRange {m : Memory} {size a : Nat} {v : List Byte} (h : m.inside size)
    (hfits : a + v.length ≤ size) : (m.storeRange a v).inside size := by
  obtain ⟨hwf, hin⟩ := h
  refine ⟨Memory.wf_storeRange hwf a v, fun c hc => ?_⟩
  rcases Memory.mem_storeRange hc with ⟨-, hlt⟩ | hold
  · omega
  · exact hin c hold

theorem State.inv_iff (s : State) :
    s.Inv ↔ s.mem.inside s.cfg.memSize ∧ s.rc4.s.toList.Perm Rc4.identity.toList ∧ s.cfg.wf = true :=
  ⟨fun ⟨hwf, hin, hperm, hcfg⟩ => ⟨⟨hwf, hin⟩, hperm, hcfg⟩, fun ⟨⟨hwf, hin⟩, hperm, hcfg⟩ => ⟨hwf, hin, hperm, hcfg⟩⟩

theorem exec_keeps_inv {t : State} (hs : s.Inv) (hexec : exec i s = .next t) : t.Inv := by
  have heff := commandEffect_of_exec hexec
  obtain ⟨hcfg, -, -, -⟩ := keepsOwnFields_of_exec hexec
  obtain ⟨hmem, hperm, hlegal⟩ := s.inv_iff.mp hs
  refine t.inv_iff.mpr ⟨?_, heff.permutation hperm, hcfg ▸ hlegal⟩
  rw [hcfg]
  rcases heff.mem_cases with e | ⟨v, e, -, -, hfits⟩ <;> rw [e]
  · exact hmem
  · exact Memory.inside_storeRange hmem hfits

end Effects

end Sys2Proof.Machine
end

section
/-! PROOF. One step of the block (20_memory.md R40, R51, R52; 70_reset_and_hazards.md R180 to R182): what serving an event can do,
said once, and from it the invariant, the order of service, and what reset leaves. -/

namespace Sys2Proof.Machine

/-! ### Serving one event -/

/-- The states that serving one event of `s` can lead to. -/
inductive Served (s : State) : State → Prop where
  | answer (r : Reply) : Served s (s.answered r)
  | command {i : Instr} {t : State} (r : Reply) (hexec : exec i s = .next t) : Served s (t.answered r)
  | illegal (r : Reply) : Served s ((s.raise .errOp).answered r)
  | register {bits off : Nat} {reg : Reg} (v : Word) (r : Reply) (ha : accessReg s bits off = some reg) :
      Served s ((writeReg s reg v).answered r)
  | reset : Served s (hardReset s)

theorem exists_served_serveWrite (bits off : Nat) (v : Word) (s : State) :
    ∃ t, serveWrite bits off v s = .next t ∧ Served s t := by
  rcases serveWrite_cases bits off v s with ⟨-, e⟩ | ⟨-, t, hissue, e⟩ | ⟨reg, -, ha, e⟩ <;> refine ⟨_, e, ?_⟩
  · exact .answer _
  · rcases issue_cases v s with ⟨i, u, -, hexec, e'⟩ | ⟨-, e'⟩
    · obtain rfl := Host.Outcome.next.inj (hissue.symm.trans e')
      exact .command _ hexec
    · obtain rfl := Host.Outcome.next.inj (hissue.symm.trans e')
      exact .illegal _
  · exact .register v _ ha

/-- A read answers, and that is all it does (R46). -/
theorem serveRead_eq_answered (bits off : Nat) (s : State) : ∃ r, serveRead bits off s = .next (s.answered r) := by
  cases ha : accessReg s bits off with
  | none => exact ⟨.read .err 0#32, by simp only [serveRead, ha]⟩
  | some r => exact ⟨.read .okay (readReg s r), by simp only [serveRead, ha]⟩

theorem exists_served (e : Event) (s : State) : ∃ t, serve e s = .next t ∧ Served s t := by
  cases e with
  | read bits off =>
    obtain ⟨r, h⟩ := serveRead_eq_answered bits off s
    exact ⟨_, h, .answer r⟩
  | write bits off v => exact exists_served_serveWrite bits off v s
  | hardReset => exact ⟨_, rfl, .reset⟩

/-- A step idles, or serves the oldest event. -/
theorem exists_step (s : State) :
    (s.inbox = [] ∧ step s = .next s) ∨
    ∃ e rest t, s.inbox = e :: rest ∧ step s = .next t ∧ Served { s with inbox := rest } t := by
  cases hin : s.inbox with
  | nil => exact .inl ⟨rfl, by simp only [step, hin]⟩
  | cons e rest =>
    obtain ⟨t, ht, hserved⟩ := exists_served e { s with inbox := rest }
    exact .inr ⟨e, rest, t, rfl, (step_of_inbox hin).trans ht, hserved⟩

/-- Settles O7: a step idles or serves an event, and both answer a next state. -/
theorem everyStepAnswersNext : Obligations.EveryStepAnswersNext := by
  intro s
  rcases exists_step s with ⟨-, h⟩ | ⟨-, -, t, -, h, -⟩
  · exact ⟨s, h⟩
  · exact ⟨t, h⟩

/-! ### The order of service -/

theorem writeReg_inbox (s : State) (r : Reg) (v : Word) : (writeReg s r v).inbox = s.inbox := by
  cases r with
  | addrLo n => cases n <;> rfl
  | addrHi n => cases n <;> rfl
  | _ => rfl

/-- Serving an event keeps the parameters and what is still offered, and counts the event. -/
theorem Served.ownFields {s t : State} (h : Served s t) :
    t.cfg = s.cfg ∧ t.inbox = s.inbox ∧ t.draws = s.draws + 1 := by
  cases h with
  | answer | illegal | reset => exact ⟨rfl, rfl, rfl⟩
  | command _ hexec =>
    obtain ⟨hcfg, hdraws, hinbox, -⟩ := keepsOwnFields_of_exec hexec
    exact ⟨hcfg, hinbox, congrArg (· + 1) hdraws⟩
  | register v _ =>
    obtain ⟨-, hcfg, hdraws⟩ := writeReg_unmapped s _ v
    exact ⟨hcfg, writeReg_inbox s _ v, congrArg (· + 1) hdraws⟩

/-- Settles O8: an idle step returns the state itself, and a served event is the head of `inbox` (`Served.ownFields`). -/
theorem stepServesOneEventInOrder : Obligations.StepServesOneEventInOrder := by
  intro s t hstep
  rcases exists_step s with ⟨hin, h⟩ | ⟨e, rest, u, hin, h, hserved⟩
  · obtain rfl := Host.Outcome.next.inj (h.symm.trans hstep)
    exact ⟨rfl, by rw [hin]; rfl, fun _ => rfl, fun hne => absurd hin hne⟩
  · obtain rfl := Host.Outcome.next.inj (h.symm.trans hstep)
    obtain ⟨hcfg, hinbox, hdraws⟩ := hserved.ownFields
    exact ⟨hcfg, by rw [hinbox, hin]; rfl, fun hnil => by simp [hin] at hnil, fun _ => hdraws⟩

/-! ### The invariant -/

/-- The invariant does not speak of the model's own fields but the parameters. -/
theorem State.Inv.congr {s t : State} (h : s.Inv) (hmem : t.mem = s.mem) (hrc4 : t.rc4 = s.rc4) (hcfg : t.cfg = s.cfg) :
    t.Inv := by
  rw [State.inv_iff] at h ⊢
  rwa [hmem, hrc4, hcfg]

theorem resetWith_inv {c : Config} (hc : c.wf = true) : (State.resetWith c).Inv where
  memCanonical := .nil
  memInRange _ h := nomatch h
  permutation := .refl _
  cfgLegal := hc

/-- Settles O3: the default parameters are legal (`resetWith_inv`). -/
theorem resetStateIsWellKept : Obligations.ResetStateIsWellKept :=
  resetWith_inv (c := Config.default) (by decide)

/-- Only a write to the `MEM` window reaches the buffer. -/
theorem writeReg_mem_eq (s : State) {r : Reg} (v : Word) (h : ∀ w, r ≠ .mem w) : (writeReg s r v).mem = s.mem := by
  cases r with
  | mem w => exact absurd rfl (h w)
  | addrLo n => cases n <;> rfl
  | addrHi n => cases n <;> rfl
  | _ => rfl

/-- A word of the `MEM` window lies inside `MEM` (`accessReg_mem`), and no other register is part of the invariant. -/
theorem writeReg_keeps_inv {s : State} (hs : s.Inv) {bits off : Nat} {r : Reg} (v : Word)
    (ha : accessReg s bits off = some r) : (writeReg s r v).Inv := by
  obtain ⟨hrc4, hcfg, -⟩ := writeReg_unmapped s r v
  by_cases hwindow : ∃ w, r = .mem w
  · obtain ⟨w, rfl⟩ := hwindow
    obtain ⟨hmem, hperm, hlegal⟩ := s.inv_iff.mp hs
    exact (State.inv_iff _).mpr ⟨Memory.inside_storeRange hmem (accessReg_mem ha), hperm, hlegal⟩
  · exact hs.congr (writeReg_mem_eq s v fun w e => hwindow ⟨w, e⟩) hrc4 hcfg

theorem Served.keeps_inv {s t : State} (h : Served s t) (hs : s.Inv) : t.Inv := by
  cases h with
  | answer | illegal => exact hs.congr rfl rfl rfl
  | command _ hexec => exact (exec_keeps_inv hs hexec).congr rfl rfl rfl
  | register v _ ha => exact (writeReg_keeps_inv hs v ha).congr rfl rfl rfl
  | reset => exact (resetWith_inv hs.cfgLegal).congr rfl rfl rfl

/-- Settles O4: serving an event keeps the invariant, a command by `exec_keeps_inv` and a register write by
`writeReg_keeps_inv`. -/
theorem stepKeepsStateWellKept : Obligations.StepKeepsStateWellKept := by
  intro s t hs hstep
  rcases exists_step s with ⟨-, h⟩ | ⟨e, rest, u, -, h, hserved⟩
  · obtain rfl := Host.Outcome.next.inj (h.symm.trans hstep)
    exact hs
  · obtain rfl := Host.Outcome.next.inj (h.symm.trans hstep)
    exact hserved.keeps_inv (hs.congr rfl rfl rfl)

/-- Settles O15: a read only answers (`serveRead_eq_answered`). -/
theorem readsHaveNoSideEffect : Obligations.ReadsHaveNoSideEffect := by
  intro s t bits off rest hin hstep
  obtain ⟨r, h⟩ := serveRead_eq_answered bits off { s with inbox := rest }
  have hread : step s = .next (State.answered { s with inbox := rest } r) := (step_of_inbox hin).trans h
  obtain rfl := Host.Outcome.next.inj (hread.symm.trans hstep)
  rfl

/-! ### Reset -/

theorem registersReset_resetWith (c : Config) : registersReset (State.resetWith c) :=
  ⟨rfl, rfl, rfl, rfl, rfl, rfl, rfl, rfl, rfl, rfl, sboxAt_identity, rfl, rfl, rfl, rfl, rfl, rfl, rfl, rfl, rfl, rfl,
    rfl, rfl⟩

/-- A `CRC_UPD` that starts from the remainder reset leaves gives the CRC-32 of its range. -/
theorem exec_crcUpd_from_reset {u : State} (hacc : u.crcAcc = crcInit)
    (hfits : u.src.toNat + u.len.toNat ≤ u.cfg.memSize) :
    ∃ v, exec .crcUpd u = .next v ∧ readReg v .crcVal = crc32 (u.bytes u.src.toNat u.len.toNat) := by
  refine ⟨_, exec_crcUpd_of_fits hfits, ?_⟩
  rw [hacc]
  rfl

/-- Settles O1: a step on an offered reset is `hardReset`, whose registers are those of `State.resetWith`. -/
theorem hardResetLeavesTheStatedValues : Obligations.HardResetLeavesTheStatedValues := by
  refine ⟨registersReset_resetWith Config.default, fun _ => rfl, fun s rest hin => ⟨_, step_of_inbox hin,
    registersReset_resetWith s.cfg, fun _ => rfl, rfl, rfl, crcVal_crcInit, ?_, ?_, ?_,
    fun u hacc hfits => exec_crcUpd_from_reset hacc hfits⟩⟩
  · exact congrArg (BitVec.setWidth 32) icsVal_zero
  · show addrLoWord (Vector.replicate 6 0#8) = 0#32
    decide
  · show addrHiWord (Vector.replicate 6 0#8) = 0#32
    decide

/-- Settles O2: `softReset` writes what `State.resetWith` holds and keeps `MEM`. -/
theorem softResetIsHardResetKeepingMem : Obligations.SoftResetIsHardResetKeepingMem := by
  refine ⟨rfl, fun s => ⟨softReset s, rfl, rfl, registersReset_resetWith s.cfg, fun a => ?_, fun _ => rfl⟩⟩
  exact State.byteAt_congr rfl rfl a

end Sys2Proof.Machine
end

section
/-! PROOF. The encodings: decode and encode agree (30_encoding.md R60, R61), the register map is one to one and its holes are the
listed ones (10_state.md R11, 20_memory.md R40), and what the scalar registers read (10_state.md R12 to R23). -/

namespace Sys2Proof.Machine

/-! ### Command words -/

theorem decode_encode (i : Instr) : decode (encode i) = .ok i :=
  (decode_eq_ok_iff_mem_commandTable _ _).mpr ((mem_commandTable_iff _ _).mpr rfl)

/-- A well-formed word is one that decodes. -/
theorem wordWf_of_decode {w : Word} {i : Instr} (h : decode w = .ok i) : wordWf w = true := by
  obtain ⟨hzero, hop⟩ := (decode_eq_ok_iff w i).mp h
  rw [wordWf, hzero, (opcodeInstr_eq_some_iff _ i).mpr hop]
  rfl

/-- Read as one 32-bit word, the host's view of the decoder is the decoder. -/
theorem decodeTableWord_toNat (w : Word) : decodeTableWord 32 w.toNat = (decode w).toOption := by
  have hmod : w.toNat % 2 ^ 32 = w.toNat := Nat.mod_eq_of_lt w.isLt
  simp only [decodeTableWord, hmod, if_pos w.isLt, BitVec.ofNat_toNat, BitVec.setWidth_eq]

/-- Settles O9: the table lists the words of the encoder, and they are the ones that decode. -/
theorem decodesExactlyTheListedWords : Obligations.DecodesExactlyTheListedWords := by
  refine ⟨decode_eq_ok_iff_mem_commandTable, fun i _ => ⟨(mem_commandTable_iff _ _).mpr rfl,
    wordWf_of_decode (decode_encode i), decode_encode i, ?_⟩⟩
  rw [decodeTableWord_toNat, decode_encode]
  rfl

/-- Settles O10: each word is one of the encoder's, or has a field that is wrong. -/
theorem writtenWordsDecode : Obligations.WrittenWordsDecode :=
  ⟨decode_encode .srst, decode_encode .crcPut, decode_encode .icsUpd, decode_encode .rc4Xor, decode_encode .wpaDec, rfl, rfl⟩

/-! ### The register map -/

theorem eq_regOffset_of_scalarAt {off : Nat} {r : Reg} (h : scalarAt off = some r) :
    off = regOffset r ∧ ∀ w, r ≠ .mem w := by
  unfold scalarAt at h
  split at h
  case h_27 => cases h
  all_goals
    obtain rfl := Option.some.inj h
    exact ⟨rfl, nofun⟩

theorem eq_regOffset_of_regAt {memSize off : Nat} {r : Reg} (halign : off % 4 = 0) (h : regAt memSize off = some r) :
    off = regOffset r ∧ ∀ w, r = .mem w → 4 * w + 4 ≤ memSize := by
  unfold regAt at h
  split at h
  next hmem =>
    split at h
    next hfits =>
      obtain rfl := Option.some.inj h
      refine ⟨by simp only [regOffset]; omega, fun w hw => ?_⟩
      have hw := Reg.mem.inj hw
      omega
    next => cases h
  next =>
    split at h
    next hptk =>
      split at h
      next =>
        obtain rfl := Option.some.inj h
        exact ⟨by simp only [regOffset]; omega, nofun⟩
      next => cases h
    next =>
      split at h
      next hkey =>
        split at h
        next =>
          obtain rfl := Option.some.inj h
          exact ⟨by simp only [regOffset]; omega, nofun⟩
        next => cases h
      next =>
        obtain ⟨hoff, hne⟩ := eq_regOffset_of_scalarAt h
        exact ⟨hoff, fun w hw => absurd hw (hne w)⟩

/-- A block with a buffer of that size: the map depends on nothing else of the state. -/
def blockOfSize (memSize : Nat) : State := State.resetWith { Config.default with memSize := memSize }

theorem accessReg_blockOfSize {memSize off : Nat} (halign : off % 4 = 0) :
    accessReg (blockOfSize memSize) 32 off = regAt memSize off :=
  accessReg_of_aligned _ halign

theorem regAt_regOffset {memSize : Nat} {r : Reg} (h : ∀ w, r = .mem w → 4 * w + 4 ≤ memSize) :
    regAt memSize (regOffset r) = some r := by
  cases r with
  | key w => exact (accessReg_blockOfSize (by simp only [regOffset]; omega)).symm.trans (accessReg_keyOffset _ w)
  | ptk w => exact (accessReg_blockOfSize (by simp only [regOffset]; omega)).symm.trans (accessReg_ptkOffset _ w)
  | mem w =>
    exact (accessReg_blockOfSize (by simp only [regOffset]; omega)).symm.trans
      (accessReg_memOffset (blockOfSize memSize) (h w rfl))
  | addrLo n => cases n <;> rfl
  | addrHi n => cases n <;> rfl
  | _ => rfl

/-- Settles O12: the map answers a register at its own offset (`regAt_regOffset`) and at no other
(`eq_regOffset_of_regAt`). -/
theorem registerMapIsOneToOne : Obligations.RegisterMapIsOneToOne := by
  intro memSize off r halign
  refine ⟨eq_regOffset_of_regAt halign, ?_⟩
  rintro ⟨rfl, hmem⟩
  exact regAt_regOffset hmem

/-! ### The holes of the map -/

theorem scalarAt_eq_none_iff {off : Nat} (h : off < 0x100) (halign : off % 4 = 0) :
    scalarAt off = none ↔ off = 0x3C ∨ off = 0x4C ∨ 0x70 ≤ off := by
  unfold scalarAt
  split
  case h_27 =>
    refine iff_of_true rfl ?_
    simp only [imp_false] at *
    omega
  all_goals exact iff_of_false nofun (by omega)

theorem regAt_eq_none_iff {memSize off : Nat} (hsize : memSize % 4 = 0) (halign : off % 4 = 0) :
    regAt memSize off = none ↔
      off = 0x3C ∨ off = 0x4C ∨ (0x70 ≤ off ∧ off ≤ 0xFC) ∨ (0x240 ≤ off ∧ off ≤ 0xFFFC) ∨ 0x10000 + memSize ≤ off := by
  unfold regAt
  split
  next =>
    split
    next => exact iff_of_false nofun (by omega)
    next => exact iff_of_true rfl (by omega)
  next =>
    split
    next =>
      split
      next => exact iff_of_false nofun (by omega)
      next => exact iff_of_true rfl (by omega)
    next =>
      split
      next =>
        split
        next => exact iff_of_false nofun (by omega)
        next => exact iff_of_true rfl (by omega)
      next =>
        rw [scalarAt_eq_none_iff (by omega) halign]
        omega

theorem accessReg_eq_none_iff {s : State} {bits off : Nat} (hcfg : s.cfg.wf = true) :
    accessReg s bits off = none ↔
      bits ≠ 32 ∨ off % 4 ≠ 0 ∨ off = 0x3C ∨ off = 0x4C ∨ (0x70 ≤ off ∧ off ≤ 0xFC) ∨ (0x240 ≤ off ∧ off ≤ 0xFFFC) ∨
        0x10000 + s.cfg.memSize ≤ off := by
  have hsize : s.cfg.memSize % 4 = 0 := by
    simp only [Config.wf, Bool.and_eq_true, beq_iff_eq] at hcfg
    exact hcfg.1.1
  unfold accessReg
  split
  next hbits =>
    split
    next halign => rw [regAt_eq_none_iff hsize halign]; omega
    next halign => exact iff_of_true rfl (.inr (.inl halign))
  next hbits => exact iff_of_true rfl (.inl hbits)

/-- Only an access of 32 bits reaches a register. -/
theorem bits_of_accessReg {s : State} {bits off : Nat} {r : Reg} (h : accessReg s bits off = some r) : bits = 32 := by
  by_contra hbits
  rw [accessReg, if_neg hbits] at h
  cases h

theorem serveRead_of_unmapped {s : State} {bits off : Nat} (h : accessReg s bits off = none) :
    serveRead bits off s = .next (s.answered (.read .err 0#32)) := by
  simp only [serveRead, h]

theorem serveWrite_of_unmapped {s : State} {bits off : Nat} (v : Word) (h : accessReg s bits off = none) :
    serveWrite bits off v s = .next (s.answered (.write .err)) := by
  simp only [serveWrite, h]

theorem serveWrite_of_mapped {s : State} {bits off : Nat} {r : Reg} (v : Word) (h : accessReg s bits off = some r) :
    ∃ t, serveWrite bits off v s = .next t ∧ t.reply = some (.write .okay) := by
  rcases serveWrite_cases bits off v s with ⟨h', -⟩ | ⟨-, t, -, e⟩ | ⟨_, -, -, e⟩
  · exact absurd (h'.symm.trans h) nofun
  · exact ⟨_, e, rfl⟩
  · exact ⟨_, e, rfl⟩

/-- Settles O11: the holes by the map (`accessReg_eq_none_iff`), and the answers by how each access is served. -/
theorem unmappedAccessesAnswerErr : Obligations.UnmappedAccessesAnswerErr := by
  intro s bits off hcfg
  refine ⟨accessReg_eq_none_iff hcfg, fun ha rest v => ⟨fun hin => ?_, fun hin => ?_⟩,
    fun r ha rest v => ⟨fun hin => ?_, fun hin => ?_⟩⟩
  · exact (step_of_inbox hin).trans (serveRead_of_unmapped (s := { s with inbox := rest }) ha)
  · exact (step_of_inbox hin).trans (serveWrite_of_unmapped (s := { s with inbox := rest }) v ha)
  · obtain rfl := bits_of_accessReg ha
    exact step_of_regRead ha hin
  · rw [step_of_inbox hin]
    exact serveWrite_of_mapped (s := { s with inbox := rest }) v ha

/-! ### The scalar registers -/

/-- `ICS_ACC` holds the sum in its low half, the phase above it and nothing else (R19). -/
theorem icsAccWord_fields (sum : Half) (phase : Bool) :
    (icsAccWord sum phase).extractLsb' 0 16 = sum ∧ (icsAccWord sum phase).getLsbD 16 = phase ∧
      (icsAccWord sum phase).extractLsb' 17 15 = 0#15 := by
  refine ⟨BitVec.extractLsb'_append_eq_right, ?_, ?_⟩
  · rw [icsAccWord_eq_setWidth, BitVec.getLsbD_setWidth, BitVec.getLsbD_append]
    cases phase <;> rfl
  · rw [icsAccWord_eq_setWidth]
    ext k hk
    simp [BitVec.getLsbD_of_ge]

theorem le16_setWidth_eq_le32Or (b0 b1 : Byte) : (le16 b0 b1).setWidth 32 = le32Or b0 b1 0#8 0#8 := by
  calc (le16 b0 b1).setWidth 32 = b1.setWidth 32 <<< 8 ||| b0.setWidth 32 :=
        BitVec.setWidth_append_eq_shiftLeft_setWidth_or
    _ = le32Or b0 b1 0#8 0#8 := by simp [le32Or, BitVec.or_comm]

/-- Settles O55: each register reads its field; the words of several parts by `icsAccWord_fields` and `le32_eq_le32Or`. -/
theorem scalarRegistersReadTheirFields : Obligations.ScalarRegistersReadTheirFields := by
  intro s
  obtain ⟨hsum, hphase, hzero⟩ := icsAccWord_fields s.icsSum s.icsPhase
  have hlo (a : Addr) : addrLoWord a = le32Or a[0] a[1] a[2] a[3] := le32_eq_le32Or _ _ _ _
  have hhi (a : Addr) : addrHiWord a = le32Or a[4] a[5] 0#8 0#8 := le16_setWidth_eq_le32Or _ _
  have hctrl : readReg s .ctrl = s.cipher.bit.setWidth 32 := rfl
  have hstatus : readReg s .status = s.status.bits.setWidth 32 := rfl
  refine ⟨rfl, rfl, ?_, ?_, ?_, ?_, ?_, ?_, ?_, ?_, rfl, rfl, rfl, rfl, rfl, rfl, rfl, hsum, hphase, hzero, rfl, rfl, rfl, rfl,
    hlo _, hhi _, hlo _, hhi _, hlo _, hhi _, hlo _, hhi _, hlo _, hhi _⟩
  all_goals
    intro h
    simp only [hctrl, hstatus, h]
    rfl

/-! ### Two facts about commands -/

/-- Settles O38: the dispatch of R110 has an arm per path. -/
theorem wpaDecIsTheSelectedPath : Obligations.WpaDecIsTheSelectedPath := by
  refine fun s => ⟨fun h => ?_, fun h => ?_⟩
  · simp only [exec, execWpaDec, h, execCcmpDec]
  · simp only [exec, execWpaDec, h, execTkipDec]

/-- Settles O44: `exec_raise`, since `raise` sets the code alone. -/
theorem commandsIgnoreTheOldStatus : Obligations.CommandsIgnoreTheOldStatus :=
  fun i s c => exec_raise s c i

end Sys2Proof.Machine
end

section
/-! PROOF. The checksum units over messages: `CRC_UPD` in pieces, the trailer that verifies, the affine law (40_crc32.md sections
2 and 3), and the sums of the Internet checksum as big-endian words (41_inet_checksum.md section 1). -/

namespace Sys2Proof.Machine

/-! ### Reading a range in pieces -/

theorem State.bytes_add (s : State) (a n m : Nat) : s.bytes a (n + m) = s.bytes a n ++ s.bytes (a + n) m := by
  simp only [State.bytes_eq_memRead, State.memRead_add]

/-- A range followed by the bytes just stored after it. -/
theorem State.bytes_memWrite_after (s : State) (a n : Nat) (v : List Byte) :
    (s.memWrite (a + n) v).bytes a (n + v.length) = s.bytes a n ++ v := by
  simp only [State.bytes_eq_memRead, State.memRead_add, State.memRead_memWrite,
    State.memRead_memWrite_of_disjoint s (a + n) v a n (.inl (Nat.le_refl _))]

/-! ### The CRC-32 remainder -/

/-- Words that differ by `d` give remainders that differ by `d` shifted through: the bytes accumulated have no part in it. -/
theorem crcUpd_xor (a d : Word) (x : List Byte) :
    crcUpd (a ^^^ d) x = crcUpd a x ^^^ Nat.repeat crcShift (8 * x.length) d := by
  induction x generalizing a d with
  | nil => rfl
  | cons b x ih =>
    have hstep : crcStep (a ^^^ d) b = crcStep a b ^^^ Nat.repeat crcShift 8 d := by
      rw [crcStep, BitVec.xor_assoc, BitVec.xor_comm d, ← BitVec.xor_assoc, repeat_crcShift_xor, crcStep]
    calc crcUpd (a ^^^ d) (b :: x) = crcUpd (crcStep a b ^^^ Nat.repeat crcShift 8 d) x := congrArg (crcUpd · x) hstep
      _ = crcUpd (crcStep a b) x ^^^ Nat.repeat crcShift (8 * x.length) (Nat.repeat crcShift 8 d) := ih _ _
      _ = crcUpd a (b :: x) ^^^ Nat.repeat crcShift (8 * (b :: x).length) d := by
        rw [← repeat_crcShift_add, List.length_cons, Nat.mul_succ, Nat.add_comm 8]
        rfl

/-- Settles O21: both sides are `crcUpd a x` changed by `b` shifted through (`crcUpd_xor`). -/
theorem crcUpdateIsAffine : Obligations.CrcUpdateIsAffine := by
  intro a b x
  have hb : crcUpd b x = crcUpd 0#32 x ^^^ Nat.repeat crcShift (8 * x.length) b := by
    rw [← crcUpd_xor, BitVec.zero_xor]
  rw [crcUpd_xor, hb, BitVec.xor_assoc, BitVec.xor_comm (crcUpd 0#32 x)]

/-- Settles O18: the two ranges are one range (`State.bytes_add`), over which the remainder chains. -/
theorem crcUpdInPiecesIsCrcUpdOfTheWhole : Obligations.CrcUpdInPiecesIsCrcUpdOfTheWhole := by
  intro s n m hcfg hfits _
  have hn : (BitVec.ofNat 32 n).toNat = n := toNat_of_le_memSize hcfg (by omega)
  have hm : (BitVec.ofNat 32 m).toNat = m := toNat_of_le_memSize hcfg (by omega)
  have hnm : (BitVec.ofNat 32 (n + m)).toNat = n + m := toNat_of_le_memSize hcfg (by omega)
  have hsrc : (s.src + BitVec.ofNat 32 n).toNat = s.src.toNat + n := toNat_add_of_le_memSize hcfg (by omega)
  have first : s.src.toNat + (BitVec.ofNat 32 n).toNat ≤ s.cfg.memSize := by omega
  have second : (s.src + BitVec.ofNat 32 n).toNat + (BitVec.ofNat 32 m).toNat ≤ s.cfg.memSize := by omega
  have whole : s.src.toNat + (BitVec.ofNat 32 (n + m)).toNat ≤ s.cfg.memSize := by omega
  refine ⟨_, _, _, exec_crcUpd_of_fits (s := { s with len := BitVec.ofNat 32 n }) first, exec_crcUpd_of_fits second,
    exec_crcUpd_of_fits (s := { s with len := BitVec.ofNat 32 (n + m) }) whole, ?_, rfl, rfl⟩
  show crcUpd (crcUpd s.crcAcc (s.bytes s.src.toNat (BitVec.ofNat 32 n).toNat))
      (s.bytes (s.src + BitVec.ofNat 32 n).toNat (BitVec.ofNat 32 m).toNat)
    = crcUpd s.crcAcc (s.bytes s.src.toNat (BitVec.ofNat 32 (n + m)).toNat)
  rw [hn, hm, hnm, hsrc, State.bytes_add, crcUpd_append]

/-- The state after `CRC_INIT` and `CRC_UPD` over the source range. -/
def afterCrc (s : State) : State :=
  { s with crcAcc := crcUpd crcInit (s.bytes s.src.toNat s.len.toNat), status := .ok }

theorem exec_crcInit_crcUpd {s : State} (h : s.src.toNat + s.len.toNat ≤ s.cfg.memSize) :
    ∃ u, exec .crcInit s = .next u ∧ exec .crcUpd u = .next (afterCrc s) := by
  refine ⟨_, exec_crcInit s, ?_⟩
  rw [exec_crcUpd_of_fits (s := { s with crcAcc := crcInit, status := .ok }) h]
  rfl

/-- A range and the trailer of its own CRC-32 right after it leave the residue (R71). -/
theorem crcUpd_bytes_trailer (s : State) (a n : Nat) :
    crcUpd crcInit ((s.memWrite (a + n) (le32Bytes (crcVal (crcUpd crcInit (s.bytes a n))))).bytes a (n + 4))
      = 0xDEBB20E3#32 := by
  have hbytes := s.bytes_memWrite_after a n (le32Bytes (crcVal (crcUpd crcInit (s.bytes a n))))
  rw [le32Bytes_length] at hbytes
  rw [hbytes, crcUpd_append, crcUpd_trailer]

/-- Settles O22: `CRC_PUT` stores the trailer where the second `CRC_UPD` reads it (`crcUpd_bytes_trailer`). -/
theorem storedTrailerVerifies : Obligations.StoredTrailerVerifies := by
  intro s hcfg _ hdst hfits
  have hlen : (s.len + 4#32).toNat = s.len.toNat + 4 := toNat_add_of_le_memSize hcfg (by omega)
  obtain ⟨s1, h1, h2⟩ := exec_crcInit_crcUpd (s := s) (by omega)
  have h3 : exec .crcPut (afterCrc s) = .next ((afterCrc s).dstWrite (le32Bytes (crcVal (afterCrc s).crcAcc))).done :=
    exec_crcPut_of_fits hfits
  have hlast : s.src.toNat + (s.len + 4#32).toNat ≤ s.cfg.memSize := by omega
  have hacc : crcUpd crcInit ((s.memWrite s.dst.toNat (le32Bytes (crcVal (afterCrc s).crcAcc))).bytes s.src.toNat
      (s.len + 4#32).toNat) = 0xDEBB20E3#32 := by
    rw [hdst, hlen]
    exact crcUpd_bytes_trailer s s.src.toNat s.len.toNat
  refine ⟨s1, _, _, _, _, h1, h2, h3, exec_crcInit _, exec_crcUpd_of_fits hlast, rfl, hacc, ?_⟩
  exact (congrArg crcVal hacc).trans (by decide)

/-! ### The Internet checksum -/

theorem icsWord_zero (phase : Bool) : icsWord phase 0#8 = 0#16 := by cases phase <;> rfl

theorem icsWord_toNat (phase : Bool) (b : Byte) : (icsWord phase b).toNat = if phase then b.toNat else 256 * b.toNat := by
  have hb := b.isLt
  cases phase with
  | false =>
    rw [icsWord, if_neg Bool.false_ne_true, if_neg Bool.false_ne_true, BitVec.toNat_shiftLeft, BitVec.toNat_setWidth,
      Nat.shiftLeft_eq]
    omega
  | true => rw [icsWord, if_pos rfl, if_pos rfl, BitVec.toNat_setWidth, Nat.mod_eq_of_lt (by omega)]

theorem icsWord_eq_zero_iff (phase : Bool) (b : Byte) : icsWord phase b = 0#16 ↔ b = 0#8 := by
  rw [← BitVec.toNat_inj, ← BitVec.toNat_inj, icsWord_toNat]
  cases phase <;> simp

/-- A high byte and a low byte add up to their big-endian word. -/
theorem ocAdd_icsWord (b0 b1 : Byte) : ocAdd (icsWord false b0) (icsWord true b1) = b0 ++ b1 := by
  have h0 := b0.isLt
  have h1 := b1.isLt
  have hsum : (b0 ++ b1).toNat = 256 * b0.toNat + b1.toNat := by
    rw [BitVec.toNat_append, ← Nat.shiftLeft_add_eq_or_of_lt h1, Nat.shiftLeft_eq, Nat.mul_comm]
  apply BitVec.eq_of_toNat_eq
  rw [ocAdd_toNat, icsWord_toNat, icsWord_toNat, if_neg Bool.false_ne_true, if_pos rfl, if_pos (by omega), hsum]

theorem icsUpd_word (sum : Half) (b0 b1 : Byte) (x : List Byte) :
    icsUpd sum false (b0 :: b1 :: x) = icsUpd (ocAdd sum (b0 ++ b1)) false x := by
  rw [← ocAdd_icsWord, ← ocAdd_assoc]
  rfl

theorem icsUpd_phase_of_even (sum : Half) {x : List Byte} (h : x.length % 2 = 0) : (icsUpd sum false x).2 = false := by
  rw [icsUpd_phase, if_neg (by omega)]

/-- Settles O26: words by `icsUpd_word`, the padding byte adds zero, and pieces chain by `icsUpd_append`. -/
theorem icsSumsBigEndianWords : Obligations.IcsSumsBigEndianWords := by
  refine ⟨icsUpd_word, fun sum x b _ => ?_, fun sum phase x y => (icsUpd_append sum phase x y).symm⟩
  have hpad : x ++ [b, 0#8] = (x ++ [b]) ++ [0#8] := by rw [List.append_assoc]; rfl
  rw [hpad, icsUpd_append _ _ (x ++ [b])]
  simp only [icsUpd, icsWord_zero, ocAdd_zero]

/-- What is added to the starting sum is added to the result. -/
theorem icsUpd_ocAdd (a c : Half) (phase : Bool) (x : List Byte) :
    (icsUpd (ocAdd a c) phase x).1 = ocAdd (icsUpd a phase x).1 c := by
  induction x generalizing a phase with
  | nil => rfl
  | cons b x ih =>
    have hswap : ocAdd (ocAdd a c) (icsWord phase b) = ocAdd (ocAdd a (icsWord phase b)) c := by
      rw [ocAdd_assoc, ocAdd_comm c, ← ocAdd_assoc]
    rw [icsUpd, hswap, ih]
    rfl

/-- A word at an even offset is one summand among the others. -/
theorem icsUpd_field {x : List Byte} (hx : x.length % 2 = 0) (b0 b1 : Byte) (y : List Byte) :
    (icsUpd 0#16 false (x ++ [b0, b1] ++ y)).1 = ocAdd (icsUpd (icsUpd 0#16 false x).1 false y).1 (b0 ++ b1) := by
  rw [List.append_assoc, icsUpd_append, icsUpd_phase_of_even _ hx, List.cons_append, List.singleton_append, icsUpd_word,
    icsUpd_ocAdd]

theorem ocAdd_icsVal (sum : Half) : ocAdd sum (icsVal sum) = 0xFFFF#16 := by
  have hsum := sum.isLt
  have hval : (icsVal sum).toNat = 65535 - sum.toNat := by rw [icsVal, BitVec.toNat_not]
  apply BitVec.eq_of_toNat_eq
  rw [ocAdd_toNat, hval, if_pos (by omega), show (0xFFFF#16).toNat = 65535 from rfl]
  omega

theorem append_bytes (c : Half) : c.extractLsb' 8 8 ++ c.extractLsb' 0 8 = c := by
  have hjoin : c.extractLsb' 8 8 ++ c.extractLsb' 0 8 = c.extractLsb' 0 16 :=
    BitVec.extractLsb'_append_extractLsb'_eq_extractLsb' rfl
  rw [hjoin, BitVec.extractLsb'_eq_self]

/-- Settles O27: the field is the complement of the sum of all the other words (`icsUpd_field`), to which it adds up to all
ones. -/
theorem storedChecksumValidates : Obligations.StoredChecksumValidates := by
  rintro x y c hx rfl
  have hsum : (icsUpd 0#16 false (x ++ [0#8, 0#8] ++ y)).1 = (icsUpd (icsUpd 0#16 false x).1 false y).1 := by
    rw [icsUpd_field hx, show (0#8 ++ 0#8 : Half) = 0#16 by decide, ocAdd_zero]
  have hvalid : (icsUpd 0#16 false (x ++ [(ics (x ++ [0#8, 0#8] ++ y)).extractLsb' 8 8,
      (ics (x ++ [0#8, 0#8] ++ y)).extractLsb' 0 8] ++ y)).1 = 0xFFFF#16 := by
    rw [icsUpd_field hx, append_bytes, ics, hsum, ocAdd_icsVal]
  refine ⟨hvalid, ?_⟩
  rw [ics, hvalid]
  decide

/-- One's-complement addition never comes back to zero. -/
theorem icsUpd_eq_zero_iff (a : Half) (phase : Bool) (x : List Byte) :
    (icsUpd a phase x).1 = 0#16 ↔ a = 0#16 ∧ ∀ b ∈ x, b = 0#8 := by
  induction x generalizing a phase with
  | nil => simp [icsUpd]
  | cons b x ih => rw [icsUpd, ih, ocAdd_eq_zero_iff, icsWord_eq_zero_iff, List.forall_mem_cons, and_assoc]

/-- Settles O28: `icsUpd_eq_zero_iff` from a sum of zero. -/
theorem zeroSumMeansZeroBytes : Obligations.ZeroSumMeansZeroBytes :=
  fun phase x => (icsUpd_eq_zero_iff 0#16 phase x).trans (and_iff_right rfl)

end Sys2Proof.Machine
end

section
/-! PROOF. The decryption paths as commands reach them: the checks in their order (60_exceptions.md section 2), recovery of what
was encrypted (43_wep.md, 44_wpa_ccmp.md, 46_tkip.md), and that one changed byte of a WEP or TKIP body is found. -/

namespace Sys2Proof.Machine

/-! ### The checks -/

theorem exec_eq_tkipDecrypt {i : Instr} {s : State} (hi : i = .tkipDec ∨ (i = .wpaDec ∧ s.cipher = .tkip)) :
    exec i s = .next (tkipDecrypt s) := by
  rcases hi with rfl | ⟨rfl, hc⟩
  · rfl
  · simp only [exec, execWpaDec, hc]

theorem exec_eq_ccmpDecrypt {i : Instr} {s : State} (hp : takesCcmpPath i s) : exec i s = .next (ccmpDecrypt s) := by
  rcases hp with rfl | ⟨rfl, hc⟩
  · rfl
  · simp only [exec, execWpaDec, hc]

/-- `WEP_DEC` up to its open step (43_wep.md R103). -/
theorem execWepDec_checks (s : State) :
    (s.len.toNat < s.cfg.wepHdrLen.toNat + 4 → execWepDec s = .next (s.raisePipeline .errLen)) ∧
    (s.cfg.wepHdrLen.toNat + 4 ≤ s.len.toNat → 253 < s.klen.toNat → execWepDec s = .next (s.raisePipeline .errKlen)) ∧
    (s.cfg.wepHdrLen.toNat + 4 ≤ s.len.toNat → s.klen.toNat ≤ 253 →
      s.cfg.memSize < s.src.toNat + s.len.toNat ∨
        s.cfg.memSize < s.dst.toNat + (s.len.toNat - s.cfg.wepHdrLen.toNat - 4) →
      execWepDec s = .next (s.raisePipeline .errRange)) := by
  rcases execWepDec_cases s with ⟨hlen, e⟩ | ⟨hlen, hklen, e⟩ | ⟨hlen, hklen, hrange, e⟩ | ⟨hlen, hklen, hsrc, hdst, e⟩
  · exact ⟨fun _ => e, by omega, by omega⟩
  · exact ⟨by omega, fun _ _ => e, by omega⟩
  · exact ⟨by omega, by omega, fun _ _ _ => e⟩
  · exact ⟨by omega, by omega, by omega⟩

/-- The TKIP path up to its open step (46_tkip.md R145). -/
theorem tkipDecrypt_checks (s : State) :
    (s.len.toNat < 12 → tkipDecrypt s = s.raisePipeline .errLen) ∧
    (12 ≤ s.len.toNat →
      s.cfg.memSize < s.src.toNat + s.len.toNat ∨ s.cfg.memSize < s.dst.toNat + (s.len.toNat - 12) →
      tkipDecrypt s = s.raisePipeline .errRange) := by
  rcases tkipDecrypt_cases s with ⟨hlen, e⟩ | ⟨hlen, hrange, e⟩ | ⟨hlen, hsrc, hdst, e⟩
  · exact ⟨fun _ => e, by omega⟩
  · exact ⟨by omega, fun _ _ => e⟩
  · exact ⟨by omega, by omega⟩

/-- The CCMP path up to the MIC (44_wpa_ccmp.md R117). -/
theorem ccmpDecrypt_checks (s : State) :
    (s.len.toNat < 16 ∨ 65535 < s.len.toNat - 16 → ccmpDecrypt s = s.raisePipeline .errLen) ∧
    (16 ≤ s.len.toNat → s.len.toNat - 16 ≤ 65535 →
      s.cfg.memSize < s.src.toNat + s.len.toNat ∨ s.cfg.memSize < s.dst.toNat + (s.len.toNat - 16) →
      ccmpDecrypt s = s.raisePipeline .errRange) := by
  rcases ccmpDecrypt_cases s with
    ⟨hlen, e⟩ | ⟨hlo, hhi, hrange, e⟩ | ⟨⟨hlo, hhi, hsrc, hdst⟩, -⟩ | ⟨⟨hlo, hhi, hsrc, hdst⟩, -⟩
  · exact ⟨fun _ => e, by omega⟩
  · exact ⟨by omega, fun _ _ _ => e⟩
  · exact ⟨by omega, by omega⟩
  · exact ⟨by omega, by omega⟩

/-- Settles O37: the three chains of checks, and that a failed one sets the code and `OLEN` alone is `raisePipeline`. -/
theorem pipelineChecksInOrder : Obligations.PipelineChecksInOrder := by
  refine ⟨fun s h hh => ?wep, fun i s hi => ?tkip, fun i s hp => ?ccmp⟩
  case wep =>
    subst hh
    exact execWepDec_checks s
  case tkip =>
    rw [exec_eq_tkipDecrypt hi]
    obtain ⟨hlen, hrange⟩ := tkipDecrypt_checks s
    exact ⟨fun h => congrArg _ (hlen h), fun h h' => congrArg _ (hrange h h')⟩
  case ccmp =>
    rw [exec_eq_ccmpDecrypt hp]
    obtain ⟨hlen, hrange⟩ := ccmpDecrypt_checks s
    exact ⟨fun h => congrArg _ (hlen h), fun h h' h'' => congrArg _ (hrange h h' h'')⟩

/-! ### The CCMP path -/

/-- Past its checks the MIC decides. -/
theorem ccmpDecrypt_of_checks {s : State} (hc : ccmpChecksPass s) :
    ccmpDecrypt s
      = if ccmpComputed s = ccmpReceived s then commitPlaintext s (ccmpPlain s) else s.raisePipeline .fail := by
  obtain ⟨hlo, hhi, hsrc, hdst⟩ := hc
  rcases ccmpDecrypt_cases s with ⟨hbad, -⟩ | ⟨-, -, hbad, -⟩ | ⟨-, hm, e⟩ | ⟨-, hm, e⟩
  · omega
  · omega
  · rw [e, if_pos hm]
  · rw [e, if_neg hm]

/-- Settles O39: the commit on a match and `FAIL` otherwise, neither of which touches the engine or an accumulator. -/
theorem ccmpDeliversOnMicMatchAlone : Obligations.CcmpDeliversOnMicMatchAlone := by
  intro i s hp hc
  rw [exec_eq_ccmpDecrypt hp, ccmpDecrypt_of_checks hc, ← ccmpPlain_length s]
  refine ⟨fun hm => ⟨_, by rw [if_pos hm], rfl, bytes_commitPlaintext s _, sameOutside_commitPlaintext s _⟩, fun hm => ?_⟩
  rw [if_neg hm]
  rfl

/-- Counter mode twice gives the data back (R115). -/
theorem ccmpPlain_of_encrypted {s : State} {plain : List Byte} (hlen : s.len.toNat = 16 + plain.length)
    (hdata : s.bytes (s.src.toNat + 8) plain.length
      = xorBytes plain (ccmKeystream s.ccmpTk (ccmpNonce s) plain.length)) : ccmpPlain s = plain := by
  rw [ccmpPlain, hlen, Nat.add_sub_cancel_left, hdata]
  exact xorBytes_cancel _ _ (ccmKeystream_length _ _ _)

theorem ccmMac_length (tk : Block) (nonce aad plain : List Byte) : (ccmMac tk nonce aad plain).length = 8 := by
  rw [ccmMac, List.length_take, Vector.length_toList]
  rfl

theorem ccmpReceived_of_encrypted {s : State} {plain mic : List Byte} (hlen : s.len.toNat = 16 + plain.length)
    (hmic : mic.length = 8)
    (htail : s.bytes (s.src.toNat + 8 + plain.length) 8
      = xorBytes mic ((ccmKeyBlock s.ccmpTk (ccmpNonce s) 0).toList.take 8)) : ccmpReceived s = mic := by
  rw [ccmpReceived, hlen, Nat.add_sub_cancel_left, htail]
  exact xorBytes_cancel _ _ (by rw [take_ccmKeyBlock_length, hmic])

/-- Settles O40: the decrypted data are the plaintext and the received MIC is its MIC, so that the path commits. -/
theorem recoversCcmpEncryptedPlaintext : Obligations.RecoversCcmpEncryptedPlaintext := by
  intro i s plain hp hc hlen hdata htail
  have hplain := ccmpPlain_of_encrypted hlen hdata
  have hreceived := ccmpReceived_of_encrypted hlen (ccmMac_length _ _ _ _) htail
  have hmatch : ccmpComputed s = ccmpReceived s := by rw [hreceived, ccmpComputed, hplain]
  obtain ⟨t, hexec, ht, hbytes, hout⟩ := (ccmpDeliversOnMicMatchAlone i s hp hc).1 hmatch
  have hm : s.len.toNat - 16 = plain.length := by omega
  rw [hm] at ht hbytes hout
  have holen : t.olen.toNat = plain.length := by
    have hlt := s.len.isLt
    rw [ht]
    exact (BitVec.toNat_ofNat _ _).trans (Nat.mod_eq_of_lt (by omega))
  refine ⟨t, hexec, by rw [ht], holen, hbytes.trans hplain, hout, ?_⟩
  rw [ht]

/-! ### The open step -/

/-- The decrypted sequence is the candidate plaintext and the check value (R102). -/
theorem rc4Xor_body_eq (s : State) (h : Nat) (key : List Byte) (hl : h + 4 ≤ s.len.toNat) :
    (rc4Xor (rc4Ksa key) (s.bytes (s.src.toNat + h) (s.len.toNat - h))).1 = openPlain s h key ++ openIcv s h key := by
  rw [← rc4Xor_take_eq_openPlain, ← rc4Xor_drop_eq_openIcv s h key hl, State.srcBytes_eq_bytes, List.take_append_drop]

/-- A body encrypted with the frame's key decrypts to its plaintext and the plaintext's trailer. -/
theorem open_of_encrypted {s : State} {h : Nat} {key plain : List Byte} (hlen : s.len.toNat = h + plain.length + 4)
    (hbody : s.bytes (s.src.toNat + h) (plain.length + 4)
      = (rc4Xor (rc4Ksa key) (plain ++ le32Bytes (crc32 plain))).1) :
    openPlain s h key = plain ∧ openIcv s h key = le32Bytes (crc32 plain) := by
  have hsplit := rc4Xor_body_eq s h key (by omega)
  rw [show s.len.toNat - h = plain.length + 4 by omega, hbody, rc4Xor_rc4Xor] at hsplit
  have hl : plain.length = (openPlain s h key).length := by rw [openPlain_length]; omega
  obtain ⟨hplain, hicv⟩ := List.append_inj hsplit hl
  exact ⟨hplain.symm, hicv.symm⟩

/-- Settles O35: the check value decrypts to the plaintext's own trailer, so that the open step delivers it. -/
theorem recoversRc4EncryptedPlaintext : Obligations.RecoversRc4EncryptedPlaintext := by
  intro i s h key plain ho hc hlen hbody
  obtain ⟨hplain, hicv⟩ := open_of_encrypted hlen hbody
  obtain ⟨t, hexec, ht, hbytes, hout⟩ := (openStepDeliversOnMatchAlone i s h key ho hc).1 (by rw [hplain, hicv])
  have hn : s.len.toNat - h - 4 = plain.length := by omega
  rw [hn, hplain] at ht
  rw [hn] at hbytes hout
  have holen : t.olen.toNat = plain.length := by
    have hlt := s.len.isLt
    rw [ht]
    exact (BitVec.toNat_ofNat _ _).trans (Nat.mod_eq_of_lt (by omega))
  refine ⟨t, hexec, by rw [ht], holen, hbytes.trans hplain, hout, ?_, by rw [ht]⟩
  rw [ht]
  rfl

/-! ### One changed byte: the remainder -/

/-- The top bit of the generator is set, so that no word but zero is shifted out. -/
theorem eq_zero_of_crcShift_eq_zero {x : Word} (h : crcShift x = 0#32) : x = 0#32 := by
  cases hx : x.getLsbD 0 with
  | false =>
    rw [crcShift_of_even hx] at h
    apply BitVec.eq_of_getLsbD_eq
    intro i _
    cases i with
    | zero => exact hx
    | succ i =>
      have hbit := congrArg (BitVec.getLsbD · i) h
      simp only [BitVec.getLsbD_ushiftRight, BitVec.getLsbD_zero, Nat.add_comm 1] at hbit ⊢
      exact hbit
  | true =>
    rw [crcShift_of_odd hx] at h
    have htop := congrArg (BitVec.getLsbD · 31) h
    simp only [BitVec.getLsbD_xor, BitVec.getLsbD_ushiftRight, BitVec.getLsbD_of_ge x (1 + 31) (by decide)] at htop
    exact absurd htop (by decide)

theorem crcShift_injective : Function.Injective crcShift := by
  intro x y h
  have hzero : crcShift (x ^^^ y) = 0#32 := by rw [crcShift_xor, h, BitVec.xor_self]
  exact BitVec.xor_eq_zero_iff.mp (eq_zero_of_crcShift_eq_zero hzero)

theorem repeat_crcShift_injective (n : Nat) : Function.Injective (Nat.repeat crcShift n) := by
  induction n with
  | zero => exact Function.injective_id
  | succ n ih => exact crcShift_injective.comp ih

theorem crcStep_left_injective (b : Byte) : Function.Injective (crcStep · b) :=
  fun _ _ h => (BitVec.xor_left_inj _).mp (repeat_crcShift_injective 8 h)

theorem crcStep_right_injective (acc : Word) : Function.Injective (crcStep acc) := by
  intro b c h
  have hwide : b.setWidth 32 = c.setWidth 32 := (BitVec.xor_right_inj acc).mp (repeat_crcShift_injective 8 h)
  have hb : (b.setWidth 32).setWidth 8 = (c.setWidth 32).setWidth 8 := by rw [hwide]
  simpa using hb

theorem crcUpd_injective (x : List Byte) : Function.Injective (crcUpd · x) := by
  induction x with
  | nil => exact Function.injective_id
  | cons b x ih => exact ih.comp (crcStep_left_injective b)

/-- One changed byte changes the remainder, whatever it is and wherever it stands. -/
theorem crcUpd_set_ne (acc : Word) (x : List Byte) {k : Nat} (hk : k < x.length) {b : Byte} (hb : b ≠ x[k]) :
    crcUpd acc (x.set k b) ≠ crcUpd acc x := by
  induction x generalizing acc k with
  | nil => cases hk
  | cons c x ih =>
    cases k with
    | zero => exact fun h => hb (crcStep_right_injective acc (crcUpd_injective x h))
    | succ k => exact ih (crcStep acc c) (Nat.lt_of_succ_lt_succ hk) hb

theorem crc32_set_ne (x : List Byte) {k : Nat} (hk : k < x.length) {b : Byte} (hb : b ≠ x[k]) :
    crc32 (x.set k b) ≠ crc32 x :=
  fun h => crcUpd_set_ne crcInit x hk hb ((BitVec.xor_left_inj _).mp h)

/-! ### One changed byte: the frame -/

theorem State.byteAt_memWrite_singleton (s : State) (a : Nat) (b : Byte) (x : Nat) :
    (s.memWrite a [b]).byteAt x = if x = a then b else s.byteAt x := by
  rw [State.byteAt_memWrite]
  by_cases hx : x = a
  · rw [dif_pos (by simp only [List.length_singleton]; omega), if_pos hx, List.getElem_singleton]
  · rw [dif_neg (by simp only [List.length_singleton]; omega), if_neg hx]

section Corrupted

variable (s : State) {h k : Nat} (key : List Byte) (b : Byte)

/-- The candidate plaintext of the corrupted frame; past the end of the plaintext nothing is set. -/
theorem openPlain_corrupted (hk : h ≤ k) :
    openPlain (s.memWrite (s.src.toNat + k) [b]) h key
      = (openPlain s h key).set (k - h) (b ^^^ rc4StreamByte (rc4Ksa key) (k - h)) := by
  apply List.ext_getElem
  · simp only [openPlain_length, List.length_set, State.memWrite_len]
  · intro j _ _
    simp only [openPlain, List.getElem_map, List.getElem_range, List.getElem_set, State.byteAt_memWrite_singleton,
      State.memWrite_src]
    by_cases hj : k - h = j
    · rw [if_pos hj, if_pos (by omega), hj]
    · rw [if_neg hj, if_neg (by omega)]

/-- A changed byte of the plaintext is none of the check value. -/
theorem openIcv_corrupted_plain (hk : h ≤ k) (hn : k - h < s.len.toNat - h - 4) :
    openIcv (s.memWrite (s.src.toNat + k) [b]) h key = openIcv s h key := by
  refine List.map_congr_left fun j _ => ?_
  simp only [State.byteAt_memWrite_singleton, State.memWrite_src, State.memWrite_len]
  rw [if_neg (by omega)]

theorem openIcv_corrupted_icv (hk : h ≤ k) (hn : s.len.toNat - h - 4 ≤ k - h) :
    openIcv (s.memWrite (s.src.toNat + k) [b]) h key
      = (openIcv s h key).set (k - h - (s.len.toNat - h - 4)) (b ^^^ rc4StreamByte (rc4Ksa key) (k - h)) := by
  apply List.ext_getElem
  · simp [openIcv]
  · intro j _ _
    simp only [openIcv, List.getElem_map, List.getElem_range, List.getElem_set, State.byteAt_memWrite_singleton,
      State.memWrite_src, State.memWrite_len]
    by_cases hj : k - h - (s.len.toNat - h - 4) = j
    · rw [if_pos hj, if_pos (by omega), show s.len.toNat - h - 4 + j = k - h by omega]
    · rw [if_neg hj, if_neg (by omega)]

variable {s key b}

/-- The changed byte leaves the check value of a plaintext it has changed, or changes the check value. -/
theorem corrupted_mismatch (hlen : k < s.len.toNat) (hl : h + 4 ≤ s.len.toNat) (hk : h ≤ k)
    (hb : b ≠ s.byteAt (s.src.toNat + k)) (hmatch : openIcv s h key = le32Bytes (crc32 (openPlain s h key))) :
    openIcv (s.memWrite (s.src.toNat + k) [b]) h key
      ≠ le32Bytes (crc32 (openPlain (s.memWrite (s.src.toNat + k) [b]) h key)) := by
  have hplain := openPlain_length s h key
  have hbyte : b ^^^ rc4StreamByte (rc4Ksa key) (k - h)
      ≠ s.byteAt (s.src.toNat + k) ^^^ rc4StreamByte (rc4Ksa key) (k - h) := fun e => hb ((BitVec.xor_left_inj _).mp e)
  rw [openPlain_corrupted s key b hk]
  by_cases hn : k - h < s.len.toNat - h - 4
  · have hold : (openPlain s h key)[k - h]'(by omega)
        = s.byteAt (s.src.toNat + k) ^^^ rc4StreamByte (rc4Ksa key) (k - h) := by
      simp only [openPlain, List.getElem_map, List.getElem_range, show s.src.toNat + h + (k - h) = s.src.toNat + k by omega]
    rw [openIcv_corrupted_plain s key b hk hn, hmatch]
    exact fun e => crc32_set_ne _ _ (hold ▸ hbyte) (le32Bytes_injective e).symm
  · rw [List.set_eq_of_length_le (by omega), ← hmatch, openIcv_corrupted_icv s key b hk (by omega)]
    have hin : k - h - (s.len.toNat - h - 4) < (openIcv s h key).length := by
      simp only [openIcv, List.length_map, List.length_range]
      omega
    have hold : (openIcv s h key)[k - h - (s.len.toNat - h - 4)]
        = s.byteAt (s.src.toNat + k) ^^^ rc4StreamByte (rc4Ksa key) (k - h) := by
      simp only [openIcv, List.getElem_map, List.getElem_range,
        show s.len.toNat - h - 4 + (k - h - (s.len.toNat - h - 4)) = k - h by omega,
        show s.src.toNat + h + (k - h) = s.src.toNat + k by omega]
    intro e
    have hset := List.getElem_of_eq e.symm hin
    rw [List.getElem_set_self, hold] at hset
    exact hbyte hset.symm

variable {i : Instr} {t : State}

/-- A command that opens the frame and ends in `OK` has passed its checks. -/
theorem openChecksPass_of_ok (ho : opensWith i s h key) (hexec : exec i s = .next t) (hok : t.status = .ok) :
    openChecksPass i s h := by
  rcases ho with ⟨rfl, rfl, -⟩ | ⟨hi, rfl, -⟩
  · have hend : execWepDec s = .next t := hexec
    rcases execWepDec_cases s with ⟨-, e⟩ | ⟨-, -, e⟩ | ⟨-, -, -, e⟩ | ⟨hlen, hklen, hsrc, hdst, -⟩
    · obtain rfl := Host.Outcome.next.inj (e.symm.trans hend)
      cases hok
    · obtain rfl := Host.Outcome.next.inj (e.symm.trans hend)
      cases hok
    · obtain rfl := Host.Outcome.next.inj (e.symm.trans hend)
      cases hok
    · exact ⟨hlen, fun _ => hklen, hsrc, hdst⟩
  · obtain rfl := Host.Outcome.next.inj ((exec_eq_tkipDecrypt hi).symm.trans hexec)
    rcases tkipDecrypt_cases s with ⟨-, e⟩ | ⟨-, -, e⟩ | ⟨hlen, hsrc, hdst, -⟩
    · rw [e] at hok
      cases hok
    · rw [e] at hok
      cases hok
    · refine ⟨hlen, fun hwep => ?_, hsrc, by omega⟩
      rcases hi with rfl | ⟨rfl, -⟩ <;> cases hwep

/-- So its check value was right. -/
theorem openIcv_of_ok (ho : opensWith i s h key) (hexec : exec i s = .next t) (hok : t.status = .ok) :
    openIcv s h key = le32Bytes (crc32 (openPlain s h key)) := by
  by_contra hm
  have hc := openChecksPass_of_ok ho hexec hok
  obtain rfl := Host.Outcome.next.inj (((openStepDeliversOnMatchAlone i s h key ho hc).2 hm).symm.trans hexec)
  cases hok

/-- The header of a frame is not part of what is encrypted, so that the key stays. -/
theorem opensWith_corrupted (ho : opensWith i s h key) (hk : h ≤ k) :
    opensWith i (s.memWrite (s.src.toNat + k) [b]) h key := by
  have hread {x : Nat} (hx : x < h) :
      (s.memWrite (s.src.toNat + k) [b]).byteAt (s.src.toNat + x) = s.byteAt (s.src.toNat + x) := by
    rw [State.byteAt_memWrite_singleton, if_neg (by omega)]
  rcases ho with ⟨hi, rfl, rfl⟩ | ⟨hi, rfl, rfl⟩
  · refine .inl ⟨hi, rfl, congrArg₂ _ (List.map_congr_left fun x hx => (hread ?_).symm) rfl⟩
    have hx := List.mem_range.mp hx
    cases hcfg : s.cfg.wepHdrLen <;> simp only [WepHdrLen.toNat] <;> omega
  · refine .inr ⟨hi, rfl, ?_⟩
    have hbody {x : Nat} (hx : x < 8) : (s.memWrite (s.src.toNat + k) [b]).bodyByte x = s.bodyByte x := hread hx
    simp only [tkipKey, tkipIv16, tkipIv32, hbody, Nat.reduceLT]
    rfl

end Corrupted

/-- Settles O36: the frame is opened with the same key (`opensWith_corrupted`) and its check value no longer fits
(`corrupted_mismatch`). -/
theorem corruptedCiphertextByteIsRejected : Obligations.CorruptedCiphertextByteIsRejected := by
  intro i s t h key k b ho _ hexec hok hk hlen hb
  have hc := openChecksPass_of_ok ho hexec hok
  have hm := corrupted_mismatch hlen hc.1 hk hb (openIcv_of_ok ho hexec hok)
  have hfail := (openStepDeliversOnMatchAlone i (s.memWrite (s.src.toNat + k) [b]) h key (opensWith_corrupted ho hk) hc).2 hm
  have hread := s.byteAt_memWrite_singleton (s.src.toNat + k) b
  refine ⟨_, hfail, rfl, rfl, rfl, (hread _).trans (if_pos rfl), fun a ha => (hread a).trans (if_neg ha)⟩

end Sys2Proof.Machine
end

section
/-! PROOF. What the decryption commands depend on (43_wep.md, 44_wpa_ccmp.md sections 2 and 4, 46_tkip.md sections 1 and 3): two
states that agree on a path's inputs are delivered the same. -/

namespace Sys2Proof.Machine

/-! ### Deliveries that cannot be told apart -/

theorem sameDelivery_raisePipeline (s t u : State) (c : Code) :
    sameDelivery s (t.raisePipeline c) (u.raisePipeline c) :=
  ⟨rfl, rfl, fun k hk => absurd hk (Nat.not_lt_zero k)⟩

theorem byteAt_commitPlaintext (s : State) (p : List Byte) {k : Nat} (hk : k < p.length) :
    (commitPlaintext s p).byteAt (s.dst.toNat + k) = p.getD k 0#8 := by
  rw [← State.bytes_getD _ _ hk, bytes_commitPlaintext]

theorem sameDelivery_commitPlaintext {s t u : State} (ht : t.dst = s.dst) (hu : u.dst = s.dst) (p : List Byte) :
    sameDelivery s (commitPlaintext t p) (commitPlaintext u p) := by
  refine ⟨rfl, rfl, fun k hk => ?_⟩
  have hk' : k < p.length := lt_of_lt_of_le hk ((BitVec.toNat_ofNat _ _).trans_le (Nat.mod_le _ _))
  have hbyte := (byteAt_commitPlaintext u p hk').trans (byteAt_commitPlaintext t p hk').symm
  rwa [ht, hu] at hbyte

/-! ### The open step -/

section Open

variable {s u : State} {h : Nat} {key : List Byte}

/-- What the open step leaves behind in both outcomes: `DST`, `OLEN`, `STATUS`, the engine and `CRC_ACC`. -/
def sameOpening (s t t' : State) : Prop := sameDelivery s t t' ∧ t'.rc4 = t.rc4 ∧ t'.crcAcc = t.crcAcc

theorem sameOpening_rc4CrcOpen (hsrc : u.src = s.src) (hdst : u.dst = s.dst) (hlen : u.len = s.len)
    (hl : h + 4 ≤ s.len.toNat)
    (hbody : ∀ k, h ≤ k → k < s.len.toNat → u.byteAt (s.src.toNat + k) = s.byteAt (s.src.toNat + k)) :
    sameOpening s (rc4CrcOpen key h s) (rc4CrcOpen key h u) := by
  have hplain : openPlain u h key = openPlain s h key := by
    rw [openPlain, openPlain, hlen, hsrc]
    refine List.map_congr_left fun k hk => ?_
    have hk := List.mem_range.mp hk
    rw [Nat.add_assoc, hbody (h + k) (by omega) (by omega)]
  have hicv : openIcv u h key = openIcv s h key := by
    rw [openIcv, openIcv, hlen, hsrc]
    refine List.map_congr_left fun k hk => ?_
    have hk := List.mem_range.mp hk
    rw [Nat.add_assoc _ h, hbody (h + (s.len.toNat - h - 4 + k)) (by omega) (by omega)]
  have hrc4 : (afterOpen u h key).rc4 = (afterOpen s h key).rc4 := by simp only [afterOpen_rc4, hlen]
  have hacc : (afterOpen u h key).crcAcc = (afterOpen s h key).crcAcc := by simp only [afterOpen_crcAcc, hplain]
  by_cases hm : openIcv s h key = le32Bytes (crc32 (openPlain s h key))
  · have hmu : openIcv u h key = le32Bytes (crc32 (openPlain u h key)) := by rw [hicv, hplain, hm]
    rw [rc4CrcOpen_of_match hl hm, rc4CrcOpen_of_match (by rwa [hlen]) hmu, hplain]
    exact ⟨sameDelivery_commitPlaintext rfl hdst _, hrc4, hacc⟩
  · have hmu : openIcv u h key ≠ le32Bytes (crc32 (openPlain u h key)) := by rwa [hicv, hplain]
    rw [rc4CrcOpen_of_mismatch hl hm, rc4CrcOpen_of_mismatch (by rwa [hlen]) hmu]
    exact ⟨sameDelivery_raisePipeline _ _ _ _, hrc4, hacc⟩

/-- A check that ends both commands with one code. -/
theorem sameDelivery_check {c : Code} (hok : c ≠ .ok) (hfail : c ≠ .fail) :
    sameDelivery s (s.raisePipeline c) (u.raisePipeline c) ∧
      ((s.raisePipeline c).status = .ok ∨ (s.raisePipeline c).status = .fail →
        (u.raisePipeline c).rc4 = (s.raisePipeline c).rc4 ∧ (u.raisePipeline c).crcAcc = (s.raisePipeline c).crcAcc) :=
  ⟨sameDelivery_raisePipeline _ _ _ _, fun h => absurd h (not_or.mpr ⟨hok, hfail⟩)⟩

end Open

/-! ### `WEP_DEC` -/

/-- No octet of the IV and none of the encrypted part is ignored: of a 4-byte header octet 3 is neither. -/
theorem not_ignored_of_wepHdrLen (n : WepHdrLen) {k : Nat} (hk : k < 3 ∨ n.toNat ≤ k) :
    k ∉ if n = .four then [3] else [] := by
  cases n with
  | three => exact List.not_mem_nil
  | four =>
    have h4 : WepHdrLen.four.toNat = 4 := rfl
    rw [if_pos rfl, List.mem_singleton]
    omega

/-- Past its checks `WEP_DEC` opens the frame under its IV and the password. -/
theorem exec_wepDec_of_pass {s : State} (hl : s.cfg.wepHdrLen.toNat + 4 ≤ s.len.toNat) (hk : s.klen.toNat ≤ 253)
    (hsrc : s.src.toNat + s.len.toNat ≤ s.cfg.memSize)
    (hdst : s.dst.toNat + (s.len.toNat - s.cfg.wepHdrLen.toNat - 4) ≤ s.cfg.memSize) :
    exec .wepDec s = .next (rc4CrcOpen (s.bytes s.src.toNat 3 ++ s.password) s.cfg.wepHdrLen.toNat s) :=
  execWepDec_of_checks ⟨hl, fun _ => hk, hsrc, hdst⟩

/-- Settles O48: each check compares operands, and the open step runs under the same key over the same bytes. -/
theorem wepDependsOnItsInputsAlone : Obligations.WepDependsOnItsInputsAlone := by
  rintro s u ⟨hsrc, hdst, hlen, hcfg⟩ hklen hpassword hbody
  obtain ⟨ulen, uklen, urange⟩ := execWepDec_checks u
  have upass := exec_wepDec_of_pass (s := u)
  simp only [hsrc, hdst, hlen, hcfg, hklen] at ulen uklen urange upass
  rcases execWepDec_cases s with ⟨h1, e⟩ | ⟨h1, h2, e⟩ | ⟨h1, h2, h3, e⟩ | ⟨h1, h2, h3, h4, -⟩
  · exact ⟨_, _, e, ulen h1, sameDelivery_check nofun nofun⟩
  · exact ⟨_, _, e, uklen h1 h2, sameDelivery_check nofun nofun⟩
  · exact ⟨_, _, e, urange h1 h2 h3, sameDelivery_check nofun nofun⟩
  · have hread (k : Nat) (hk : k < 3 ∨ s.cfg.wepHdrLen.toNat ≤ k) (hk' : k < s.len.toNat) :
        u.byteAt (s.src.toNat + k) = s.byteAt (s.src.toNat + k) :=
      hbody k hk' (not_ignored_of_wepHdrLen _ hk)
    have hiv : u.bytes s.src.toNat 3 = s.bytes s.src.toNat 3 := List.map_congr_left fun k hk => by
      have hk := List.mem_range.mp hk
      exact hread k (.inl hk) (by omega)
    have hpass := exec_wepDec_of_pass h1 h2 h3 h4
    have hupass := upass h1 h2 h3 h4
    rw [hiv, hpassword] at hupass
    obtain ⟨hsame, hunits⟩ := sameOpening_rc4CrcOpen (key := s.bytes s.src.toNat 3 ++ s.password) hsrc hdst hlen h1
      fun k hk => hread k (.inr hk)
    exact ⟨_, _, hpass, hupass, hsame, fun _ => hunits⟩

/-! ### `TKIP_DEC` -/

theorem ptkBlock_congr {p q : Vector Byte 64} {off off' : Nat} (h : off + 16 ≤ 64) (h' : off' + 16 ≤ 64)
    (hoff : off' = off) (hbytes : ∀ k, k < 16 → q.toList.getD (off + k) 0#8 = p.toList.getD (off + k) 0#8) :
    ptkBlock q off' h' = ptkBlock p off h := by
  subst hoff
  refine Vector.ext fun k hk => ?_
  simp only [ptkBlock, Vector.getElem_ofFn, getElem_eq_toList_getD]
  exact hbytes k hk

/-- The key of a TKIP frame takes octets 0, 2 and 4 to 7 of the header (46_tkip.md R140). -/
theorem tkipKey_congr {s u : State} (hptk : ∀ k, 32 ≤ k → k < 48 → u.ptk.toList.getD k 0#8 = s.ptk.toList.getD k 0#8)
    (ha2 : u.a2 = s.a2) (hsrc : u.src = s.src)
    (hread : ∀ k, k < 8 → k ∉ [1, 3] → u.byteAt (s.src.toNat + k) = s.byteAt (s.src.toNat + k)) : tkipKey u = tkipKey s := by
  have htk : u.tkipTk = s.tkipTk := ptkBlock_congr _ _ rfl fun k hk => hptk _ (Nat.le_add_right _ _) (by
    rw [Config.tkipTkOff]
    omega)
  have hbody (k : Nat) (hk : k < 8) (hne : k ∉ [1, 3]) : u.bodyByte k = s.bodyByte k := by
    rw [State.bodyByte, State.bodyByte, hsrc, hread k hk hne]
  have h16 : tkipIv16 u = tkipIv16 s := by
    rw [tkipIv16, tkipIv16, hbody 0 (by decide) (by decide), hbody 2 (by decide) (by decide)]
  have h32 : tkipIv32 u = tkipIv32 s := by
    rw [tkipIv32, tkipIv32, hbody 4 (by decide) (by decide), hbody 5 (by decide) (by decide),
      hbody 6 (by decide) (by decide), hbody 7 (by decide) (by decide)]
  rw [tkipKey, tkipKey, htk, ha2, h16, h32]

theorem tkipDecrypt_of_pass {s : State} (hl : 12 ≤ s.len.toNat) (hsrc : s.src.toNat + s.len.toNat ≤ s.cfg.memSize)
    (hdst : s.dst.toNat + (s.len.toNat - 12) ≤ s.cfg.memSize) : tkipDecrypt s = rc4CrcOpen (tkipKey s) 8 s :=
  tkipDecrypt_of_checks (i := .tkipDec) ⟨hl, nofun, hsrc, by rwa [Nat.sub_sub]⟩

/-- Settles O49: the checks compare operands, and the open step runs under the same key (`tkipKey_congr`) over the same
bytes. -/
theorem tkipDependsOnItsInputsAlone : Obligations.TkipDependsOnItsInputsAlone := by
  rintro s u ⟨hsrc, hdst, hlen, hcfg⟩ ha2 hptk hbody
  refine ⟨_, _, rfl, rfl, ?_⟩
  obtain ⟨ulen, urange⟩ := tkipDecrypt_checks u
  have upass := tkipDecrypt_of_pass (s := u)
  simp only [hsrc, hdst, hlen, hcfg] at ulen urange upass
  rcases tkipDecrypt_cases s with ⟨h1, e⟩ | ⟨h1, h2, e⟩ | ⟨h1, h2, h3, e⟩
  · rw [e, ulen h1]
    exact sameDelivery_check nofun nofun
  · rw [e, urange h1 h2]
    exact sameDelivery_check nofun nofun
  · have hkey : tkipKey u = tkipKey s :=
      tkipKey_congr hptk ha2 hsrc fun k hk hne => hbody k (by omega) hne
    rw [e, upass h1 h2 h3, hkey]
    obtain ⟨hsame, hunits⟩ := sameOpening_rc4CrcOpen (key := tkipKey s) hsrc hdst hlen h1 fun k hk hk' =>
      hbody k hk' (by simp only [List.mem_cons, List.not_mem_nil, or_false]; omega)
    exact ⟨hsame, fun _ => hunits⟩

/-! ### `CCMP_DEC` -/

/-- A bit under the mask. -/
theorem getLsbD_of_and_eq {x y m : Half} (h : y &&& m = x &&& m) {i : Nat} (hi : m.getLsbD i = true) :
    y.getLsbD i = x.getLsbD i := by
  have hbit := congrArg (BitVec.getLsbD · i) h
  simpa only [BitVec.getLsbD_and, hi, Bool.and_true] using hbit

theorem a4Present_of_and_eq {x y : Half} (h : y &&& 0x878F#16 = x &&& 0x878F#16) : a4Present y = a4Present x := by
  rw [Bool.eq_iff_iff, a4Present_iff, a4Present_iff, getLsbD_of_and_eq h (i := 8) (by decide),
    getLsbD_of_and_eq h (i := 9) (by decide)]

theorem qosPresent_of_and_eq {x y : Half} (h : y &&& 0x878F#16 = x &&& 0x878F#16) : qosPresent y = qosPresent x := by
  rw [Bool.eq_iff_iff, qosPresent_iff, qosPresent_iff, getLsbD_of_and_eq h (i := 3) (by decide),
    getLsbD_of_and_eq h (i := 2) (by decide), getLsbD_of_and_eq h (i := 7) (by decide)]

/-- A bit that is set afterwards need not be kept by the mask before. -/
theorem and_or_or_self (x m k : Half) : x &&& (m ||| k) ||| k = x &&& m ||| k := by
  ext i hi
  simp only [BitVec.getElem_or, BitVec.getElem_and]
  cases k[i] <;> simp

/-- The `FC` of the AAD: of the bits R113 keeps, bit 14 is set in any case. -/
theorem aadFc_of_and_eq {x y : Half} (h : y &&& 0x878F#16 = x &&& 0x878F#16) :
    y &&& 0xC78F#16 ||| 0x4000#16 = x &&& 0xC78F#16 ||| 0x4000#16 := by
  have hmask : (0xC78F#16 : Half) = 0x878F#16 ||| 0x4000#16 := by decide
  rw [hmask, and_or_or_self, and_or_or_self, h]

section Ccmp

variable {s u : State}

theorem ccmpAad_congr (hfc : u.fc &&& 0x878F#16 = s.fc &&& 0x878F#16) (hsc : u.sc &&& 0x000F#16 = s.sc &&& 0x000F#16)
    (hqc : qosPresent s.fc = true → u.qc &&& 0x000F#16 = s.qc &&& 0x000F#16) (ha1 : u.a1 = s.a1) (ha2 : u.a2 = s.a2)
    (ha3 : u.a3 = s.a3) (ha4 : a4Present s.fc = true → u.a4 = s.a4) : ccmpAad u = ccmpAad s := by
  have h4 : (if a4Present s.fc then u.a4.toList else []) = if a4Present s.fc then s.a4.toList else [] :=
    ite_congr rfl (fun h => by rw [ha4 h]) fun _ => rfl
  have hq : (if qosPresent s.fc then le16Bytes (u.qc &&& 0x000F#16) else [])
      = if qosPresent s.fc then le16Bytes (s.qc &&& 0x000F#16) else [] :=
    ite_congr rfl (fun h => by rw [hqc h]) fun _ => rfl
  rw [ccmpAad, ccmpAad, aadFc_of_and_eq hfc, a4Present_of_and_eq hfc, qosPresent_of_and_eq hfc, hsc, ha1, ha2, ha3, h4, hq]

/-- The nonce takes octets 0, 1 and 4 to 7 of the header (44_wpa_ccmp.md R111). -/
theorem ccmpNonce_congr (hfc : u.fc &&& 0x878F#16 = s.fc &&& 0x878F#16)
    (hqc : qosPresent s.fc = true → u.qc &&& 0x000F#16 = s.qc &&& 0x000F#16) (ha2 : u.a2 = s.a2) (hsrc : u.src = s.src)
    (hread : ∀ k, k < 8 → k ∉ [2, 3] → u.byteAt (s.src.toNat + k) = s.byteAt (s.src.toNat + k)) :
    ccmpNonce u = ccmpNonce s := by
  have hpriority : ccmpPriority u = ccmpPriority s := by
    rw [ccmpPriority_eq_ite, ccmpPriority_eq_ite, qosPresent_of_and_eq hfc]
    exact ite_congr rfl (fun h => by rw [hqc h]) fun _ => rfl
  have hbody (k : Nat) (hk : k < 8) (hne : k ∉ [2, 3]) : u.bodyByte k = s.bodyByte k := by
    rw [State.bodyByte, State.bodyByte, hsrc, hread k hk hne]
  have hpn : ccmpPn u = ccmpPn s := by
    rw [ccmpPn, ccmpPn, hbody 7 (by decide) (by decide), hbody 6 (by decide) (by decide), hbody 5 (by decide) (by decide),
      hbody 4 (by decide) (by decide), hbody 1 (by decide) (by decide), hbody 0 (by decide) (by decide)]
  rw [ccmpNonce, ccmpNonce, hpriority, ha2, hpn]

/-- The decrypted data and the received MIC take the body from octet 8 on. -/
theorem ccmpPlain_congr (hsrc : u.src = s.src) (hlen : u.len = s.len) (hl : 16 ≤ s.len.toNat) (htk : u.ccmpTk = s.ccmpTk)
    (hnonce : ccmpNonce u = ccmpNonce s)
    (hread : ∀ k, 8 ≤ k → k < s.len.toNat → u.byteAt (s.src.toNat + k) = s.byteAt (s.src.toNat + k)) :
    ccmpPlain u = ccmpPlain s ∧ ccmpReceived u = ccmpReceived s := by
  have hbytes (a n : Nat) (ha : 8 ≤ a) (hn : a + n ≤ s.len.toNat) :
      u.bytes (s.src.toNat + a) n = s.bytes (s.src.toNat + a) n :=
    List.map_congr_left fun k hk => by
      have hk := List.mem_range.mp hk
      rw [Nat.add_assoc, hread (a + k) (by omega) (by omega)]
  constructor
  · rw [ccmpPlain, ccmpPlain, hsrc, hlen, htk, hnonce, hbytes 8 _ (by omega) (by omega)]
  · rw [ccmpReceived, ccmpReceived, hsrc, hlen, htk, hnonce, Nat.add_assoc, hbytes _ 8 (by omega) (by omega)]

end Ccmp

/-- Settles O50: the checks compare operands, and the key, the nonce, the AAD and the data are the same, so that the MIC decides
alike. -/
theorem ccmpDependsOnItsInputsAlone : Obligations.CcmpDependsOnItsInputsAlone := by
  rintro s u ⟨hsrc, hdst, hlen, hcfg⟩ hfc hsc hqc ha1 ha2 ha3 ha4 hptk hbody
  have hqc : qosPresent s.fc = true → u.qc &&& 0x000F#16 = s.qc &&& 0x000F#16 := fun h => by
    obtain ⟨h3, h2, h7⟩ := (qosPresent_iff _).mp h
    exact hqc h3 h2 h7
  have ha4 : a4Present s.fc = true → u.a4 = s.a4 := fun h => by
    obtain ⟨h8, h9⟩ := (a4Present_iff _).mp h
    exact ha4 h8 h9
  refine ⟨_, _, rfl, rfl, ?_⟩
  obtain ⟨ulen, urange⟩ := ccmpDecrypt_checks u
  have upass := ccmpDecrypt_of_checks (s := u)
  simp only [ccmpChecksPass, hsrc, hdst, hlen, hcfg] at ulen urange upass
  by_cases hc : ccmpChecksPass s
  · have htk : u.ccmpTk = s.ccmpTk := ptkBlock_congr _ _ (by rw [hcfg]) hptk
    have hnonce : ccmpNonce u = ccmpNonce s :=
      ccmpNonce_congr hfc hqc ha2 hsrc fun k hk hne => hbody k (by have := hc.1; omega) hne
    obtain ⟨hplain, hreceived⟩ := ccmpPlain_congr hsrc hlen hc.1 htk hnonce fun k hk hk' =>
      hbody k hk' (by simp only [List.mem_cons, List.not_mem_nil, or_false]; omega)
    have hcomputed : ccmpComputed u = ccmpComputed s := by
      rw [ccmpComputed, ccmpComputed, htk, hnonce, ccmpAad_congr hfc hsc hqc ha1 ha2 ha3 ha4, hplain]
    rw [ccmpDecrypt_of_checks hc, upass hc, hcomputed, hreceived, hplain]
    split
    · exact sameDelivery_commitPlaintext rfl hdst _
    · exact sameDelivery_raisePipeline _ _ _ _
  · rcases ccmpDecrypt_cases s with ⟨h1, e⟩ | ⟨h1, h2, h3, e⟩ | ⟨hc', -⟩ | ⟨hc', -⟩
    · rw [e, ulen h1]
      exact sameDelivery_raisePipeline _ _ _ _
    · rw [e, urange h1 h2 h3]
      exact sameDelivery_raisePipeline _ _ _ _
    · exact absurd hc' hc
    · exact absurd hc' hc

end Sys2Proof.Machine
end

section
/-! PROOF. The field of AES (45_aes128.md R130, R131) and the layout of the TKIP key (46_tkip.md R144): the product as a sum over
the bits of one factor, which gives its laws. -/

namespace Sys2Proof.Machine

/-! ### The product as a sum -/

/-- The sum of the multiples `xtime^k a` for the bits `k < n` that are set in `b`. -/
def gmulSum (a b : Byte) : Nat → Byte
  | 0 => 0#8
  | n + 1 => gmulSum a b n ^^^ if b.getLsbD n then xtime^[n] a else 0#8

/-- `gmul` runs through the sums and the multiples. -/
theorem gmul_eq_gmulSum (a b : Byte) : gmul a b = gmulSum a b 8 := by
  have hfold (n : Nat) :
      (List.range n).foldl (fun p k => (if b.getLsbD k then p.1 ^^^ p.2 else p.1, xtime p.2)) (0#8, a)
        = (gmulSum a b n, xtime^[n] a) := by
    induction n with
    | zero => rfl
    | succ n ih =>
      rw [List.range_succ, List.foldl_concat, ih, gmulSum, Function.iterate_succ_apply']
      cases b.getLsbD n <;> simp
  exact congrArg Prod.fst (hfold 8)

theorem xtime_eq (a : Byte) : xtime a = a <<< 1 ^^^ if a.getLsbD 7 then 0x1B#8 else 0#8 := by
  rw [xtime]
  split
  · rfl
  · rw [BitVec.xor_zero]

/-- Two conditional summands under one condition, and under two conditions. -/
theorem xor_ite (p : Bool) (x y : Byte) :
    (if p then x ^^^ y else 0#8) = (if p then x else 0#8) ^^^ if p then y else 0#8 := by
  cases p <;> simp

theorem ite_xor (p q : Bool) (x : Byte) :
    (if (p ^^ q) then x else 0#8) = (if p then x else 0#8) ^^^ if q then x else 0#8 := by
  cases p <;> cases q <;> simp

/-- Exchanging the middle two of four summands. -/
theorem xor_xor_xor_comm (a b c d : Byte) : a ^^^ b ^^^ (c ^^^ d) = a ^^^ c ^^^ (b ^^^ d) := by
  ac_rfl

theorem xtime_xor (a b : Byte) : xtime (a ^^^ b) = xtime a ^^^ xtime b := by
  rw [xtime_eq, xtime_eq, xtime_eq, BitVec.shiftLeft_xor_distrib, BitVec.getLsbD_xor, ite_xor, xor_xor_xor_comm]

theorem iterate_xtime_xor (n : Nat) (a b : Byte) : xtime^[n] (a ^^^ b) = xtime^[n] a ^^^ xtime^[n] b := by
  induction n with
  | zero => rfl
  | succ n ih => simp only [Function.iterate_succ_apply', ih, xtime_xor]

theorem gmulSum_xor_left (a b c : Byte) (n : Nat) : gmulSum (a ^^^ b) c n = gmulSum a c n ^^^ gmulSum b c n := by
  induction n with
  | zero => exact BitVec.xor_zero.symm
  | succ n ih => rw [gmulSum, ih, iterate_xtime_xor, xor_ite, xor_xor_xor_comm, gmulSum, gmulSum]

theorem gmulSum_xor_right (a b c : Byte) (n : Nat) : gmulSum a (b ^^^ c) n = gmulSum a b n ^^^ gmulSum a c n := by
  induction n with
  | zero => exact BitVec.xor_zero.symm
  | succ n ih => rw [gmulSum, ih, BitVec.getLsbD_xor, ite_xor, xor_xor_xor_comm, gmulSum, gmulSum]

theorem gmul_xor_left (a b c : Byte) : gmul (a ^^^ b) c = gmul a c ^^^ gmul b c := by
  simp only [gmul_eq_gmulSum, gmulSum_xor_left]

theorem gmul_xor_right (a b c : Byte) : gmul a (b ^^^ c) = gmul a b ^^^ gmul a c := by
  simp only [gmul_eq_gmulSum, gmulSum_xor_right]

/-! ### The product and `xtime` -/

theorem xtime_zero : xtime 0#8 = 0#8 := by decide

theorem xtime_gmulSum (a b : Byte) (n : Nat) : xtime (gmulSum a b n) = gmulSum (xtime a) b n := by
  induction n with
  | zero => exact xtime_zero
  | succ n ih =>
    rw [gmulSum, xtime_xor, ih, gmulSum, ← Function.iterate_succ_apply, Function.iterate_succ_apply',
      apply_ite xtime, xtime_zero]

/-- Shifting `b` left takes its multiples one further. -/
theorem gmulSum_shiftLeft (a b : Byte) {n : Nat} (hn : n < 8) : gmulSum a (b <<< 1) (n + 1) = gmulSum (xtime a) b n := by
  induction n with
  | zero => simp [gmulSum]
  | succ n ih =>
    have hbit : (b <<< 1).getLsbD (n + 1) = b.getLsbD n := by
      simp [hn, BitVec.getLsbD_eq_getElem, show n < 8 by omega]
    rw [gmulSum, ih (by omega), hbit, Function.iterate_succ_apply, gmulSum]

/-- The reduction polynomial: `x^8` is `x^4 + x^3 + x + 1`. -/
theorem gmul_reduction : ∀ a : Byte, gmul a 0x1B#8 = xtime^[8] a := by
  decide +kernel

theorem gmul_xtime (a b : Byte) : gmul a (xtime b) = xtime (gmul a b) := by
  have hshift : gmul a (b <<< 1) = gmulSum (xtime a) b 7 := by
    rw [gmul_eq_gmulSum, gmulSum_shiftLeft a b (by decide)]
  have hreduce : gmul a (if b.getLsbD 7 then 0x1B#8 else 0#8) = if b.getLsbD 7 then xtime^[7] (xtime a) else 0#8 := by
    cases b.getLsbD 7 with
    | false => rw [if_neg Bool.false_ne_true, if_neg Bool.false_ne_true, gmul_eq_gmulSum]; simp [gmulSum]
    | true => exact gmul_reduction a
  calc gmul a (xtime b) = gmul a (b <<< 1) ^^^ gmul a (if b.getLsbD 7 then 0x1B#8 else 0#8) := by
        rw [xtime_eq, gmul_xor_right]
    _ = gmulSum (xtime a) b 8 := by rw [hshift, hreduce]; rfl
    _ = xtime (gmul a b) := by rw [gmul_eq_gmulSum, xtime_gmulSum]

theorem gmul_one (a : Byte) : gmul a 1#8 = a := by
  rw [gmul_eq_gmulSum]
  simp [gmulSum]

theorem gmul_two (a : Byte) : gmul a 2#8 = xtime a := by
  rw [show (2#8 : Byte) = xtime 1#8 by decide, gmul_xtime, gmul_one]

theorem gmul_three (a : Byte) : gmul a 3#8 = xtime a ^^^ a := by
  rw [show (3#8 : Byte) = 2#8 ^^^ 1#8 by decide, gmul_xor_right, gmul_two, gmul_one]

/-- Settles O52: the product is additive since each sum is, and commutes with `xtime` by the reduction polynomial
(`gmul_xtime`). -/
theorem aesFieldProductLaws : Obligations.AesFieldProductLaws :=
  ⟨fun _ => rfl, gmul_xtime, by decide, by decide, by decide, by decide, gmul_xor_left, gmul_xor_right,
    fun a => ⟨gmul_one a, gmul_two a, gmul_three a⟩⟩

/-! ### The S-box (R131) -/

/-- The inverse of the affine map of R131, applied to a table entry. -/
def sboxPreimage (a : Byte) : Byte :=
  (sbox a).rotateLeft 1 ^^^ (sbox a).rotateLeft 3 ^^^ (sbox a).rotateLeft 6 ^^^ 0x05#8

/-- The table, entry by entry: what the affine map takes to the entry is the inverse in the field. -/
theorem sbox_table : ∀ a : Byte,
    (a = 0#8 → sboxPreimage a = 0#8) ∧ (a ≠ 0#8 → gmul a (sboxPreimage a) = 1#8) ∧
      sbox a = sboxPreimage a ^^^ (sboxPreimage a).rotateLeft 1 ^^^ (sboxPreimage a).rotateLeft 2
        ^^^ (sboxPreimage a).rotateLeft 3 ^^^ (sboxPreimage a).rotateLeft 4 ^^^ 0x63#8 := by
  decide +kernel

/-- Settles O53: the inverse is what the affine map takes to the table's entry (`sbox_table`). -/
theorem sboxIsTheAffineInverse : Obligations.SboxIsTheAffineInverse :=
  fun a => ⟨sboxPreimage a, sbox_table a⟩

/-! ### The TKIP key (R144) -/

theorem tkipPhase2_length (tk : Block) (p : Phase1Key) (iv16 : Half) : (tkipPhase2 tk p iv16).length = 16 := rfl

theorem tkipPhase2_take (tk : Block) (p : Phase1Key) (iv16 : Half) :
    (tkipPhase2 tk p iv16).take 3
      = [iv16.extractLsb' 8 8, (iv16.extractLsb' 8 8 ||| 0x20#8) &&& 0x7F#8, iv16.extractLsb' 0 8] := rfl

/-- The second key byte has bit 5 set and bit 7 clear, whatever `IV16` is. -/
theorem weakKeyByte_bits (b : Byte) :
    ((b ||| 0x20#8) &&& 0x7F#8).getLsbD 5 = true ∧ ((b ||| 0x20#8) &&& 0x7F#8).getLsbD 7 = false := by
  constructor <;> simp

/-- Settles O54: the first three bytes are `tkipPhase2_take`, the second of them `weakKeyByte_bits`. -/
theorem tkipKeyLayout : Obligations.TkipKeyLayout :=
  fun tk p iv16 => ⟨tkipPhase2_length tk p iv16, tkipPhase2_take tk p iv16, weakKeyByte_bits _⟩

end Sys2Proof.Machine
end
